-- ==== Sys2Proof/Word.lean ====
section
/-! DEFINITION. Word types of the Tygiuno T9 (spec/00_scope.md, Notation and units): the bit-vector
widths the manual names, and the sparse table type the state uses. No arithmetic stands here. -/

namespace Sys2Proof

/-- One byte of a packet, record or memory cell. -/
abbrev Byte := BitVec 8
abbrev U3 := BitVec 3
abbrev U4 := BitVec 4
abbrev U8 := BitVec 8
abbrev U16 := BitVec 16
abbrev U24 := BitVec 24
abbrev U32 := BitVec 32
abbrev U64 := BitVec 64
abbrev U128 := BitVec 128

/-- A quadrant number, or a drain, manifest or memory port number, 0-3 (R17). -/
abbrev Quad := BitVec 2

/-- A stride number, 48 bits (R31). -/
abbrev Stride := BitVec 48

/-- A split stamp: TBCLK cycles in the current stamp epoch (R47). -/
abbrev Stamp := BitVec 64

/-- A row number of a heat, 0-16,383. -/
abbrev RowNo := BitVec 14

/-- A byte offset within the 2 MiB engine window (R400). -/
abbrev Offset := BitVec 21

/-- A hierarchy address (R13). -/
abbrev HAddr := BitVec 64

/-- A sparse table: entries by number, numbers strictly rising. -/
abbrev Table (α : Type) := List (Nat × α)

end Sys2Proof
end

