-- ==== Sys2Proof/Syntax.lean ====
section
/-! DEFINITION. The commands of the T9: one constructor of `Instr` per row of spec/opcode_table.json.
The table gives no operands; each constructor's operands are what the cited rule says the step carries. -/

namespace Sys2Proof

/-- Header of a command packet as the effect of the packet uses it (03_command_packets.md, command
packet; R57, R60). `ring` is the tenant context whose ring held the packet, `ridx` its ring index. -/
structure Hdr where
  ring : U8
  vec : U3
  irq : Bool
  target : U8
  tag : U32
  ridx : U32
  deriving DecidableEq, Repr

/-- An interrupt vector: PV0-PV31, or TV0-TV7 of a tenant context (R302). -/
inductive VecId where
  | pv (v : BitVec 5)
  | tv (tc : U8) (v : U3)
  deriving DecidableEq, Repr

/-- Fault classes of R383, each named as the table names it. -/
inductive FaultClass where
  | eccCorr | eccObject | eccTenant | eccQuad | eccEngine
  | drainProtocol | memError | memTimeout | strideRepeat | strideGap | boundaryEarly
  | leadership | quadOut | stitchLink | brewKat | placement | sqCheck
  | versionFenceBreach | tenantReset | laneReset
  deriving DecidableEq, Repr

/-- Engine-global units (01_organisation.md, table of tile kinds). -/
inductive GlbUnit where
  | cp | rp | tp | kp | timeBase
  deriving DecidableEq, Repr

/-- The tiles of one quadrant (01_organisation.md, table of tile kinds). A microsequencer is named by its place
in the quadrant (R17), a stitch link end by its side: clockwise, to the next quadrant, or not. -/
inductive Tile where
  | rqt (i : BitVec 2) | spr (i : U4) | wlk (i : BitVec 2) | sq (i : BitVec 2)
  | dp | mp | mem | ixc | mac | hpt | qms
  | xl (clockwise : Bool)
  | pf
  | glb (u : GlbUnit)
  deriving DecidableEq, Repr

/-- A tile of a quadrant. -/
structure TileAt where
  quad : Quad
  tile : Tile
  deriving DecidableEq, Repr

/-- An SRAM bank of a tile (R12). -/
structure BankAt where
  at_ : TileAt
  bank : BitVec 5
  deriving DecidableEq, Repr

/-- What the checks of a reset exit find: the first known-answer triple that fails (R189), the banks that fail (R414). -/
structure ExitFinds where
  kat : Option U16
  bad : List BankAt
  deriving DecidableEq, Repr

/-- Where a fault report places its root (R12-R14, R386): an SRAM entry with the failing data bit, or with none when
ECC locates the error to a check bit; a register word of flop state; a tile, a quadrant, the engine. -/
inductive Site where
  | sram (t : TileAt) (entry : BitVec 15) (cell : Option (BitVec 13))
  | flop (t : TileAt) (word : BitVec 15)
  | tile (t : TileAt)
  | quad (q : Quad)
  | engine
  deriving DecidableEq, Repr

/-- The object a fault concerns, where its class needs one (R383, R386): `parked` is a spill-area record (R79). -/
inductive FaultObj where
  | none
  | slot (s : U16)
  | parked (entry : Nat)
  | tenant (tc : U8)
  | quad (q : Quad)
  | lane (l : BitVec 6)
  deriving DecidableEq, Repr

/-- One access of the CP target channel (14_ports_and_partners.md, control port). -/
structure CpAccess where
  write : Bool
  off : Offset
  size64 : Bool
  priv : Bool
  data : U64
  deriving DecidableEq, Repr

/-- The commands. The rows stand in the order of spec/opcode_table.json. -/
inductive Instr where
  | strideEvent (num : Stride) (bnd : Bool) (hclk : Nat)
  | boundary
  | leaseRenewal
  | renew (q : Quad)
  | ttlScan
  | counterWindowClose
  | nspsWindowClose
  | nspsAutoCommit
  | terminalHoldEnd
  | packetFetch (tc : U8) (pkt : List Byte) (err : Bool)
  | preparationComplete (tc : U8) (ridx : U32)
  | nop (h : Hdr)
  | setStrideRate (h : Hdr) (nsps : U32)
  | policyLoad (h : Hdr) (addr : U64) (bytes : U32)
  | planLoad (h : Hdr) (addr : U64) (model : U8) (count : U16)
  | tenantOpen (h : Hdr) (qos : U64)
  | tenantClose (h : Hdr) (mode : U8)
  | tenantQos (h : Hdr) (qos : U64)
  | laneGrant (h : Hdr) (mask : U64)
  | laneReclaim (h : Hdr) (mask : U64) (budget : U32)
  | contextSave (h : Hdr) (addr : U64) (bytes : U32)
  | contextRestore (h : Hdr) (addr : U64) (bytes : U32)
  | resetScopeQuadrant (h : Hdr) (index : U8)
  | resetScopeTenant (h : Hdr) (index : U8)
  | resetScopeLane (h : Hdr) (index : U8)
  | powerStateRun (h : Hdr) (scope : U8) (quad : U8)
  | powerStateStop (h : Hdr) (scope : U8) (quad : U8)
  | powerStateEntry (h : Hdr) (state : U8) (scope : U8) (quad : U8)
  | capture (h : Hdr) (addr : U64)
  | admitReq (h : Hdr) (rid : U32) (desc : U64)
  | pause (h : Hdr) (rid : U32) (ttl : U32) (tier : U8)
  | resume (h : Hdr) (rid : U32)
  | cancel (h : Hdr) (rid : U32)
  | setBudget (h : Hdr) (rid : U32) (maxTokens : U32) (budgetNs : U64)
  | handoff (h : Hdr) (rid : U32) (peer : U32)
  | regionPublish (h : Hdr) (addr : U64) (bytes : U32) (kind : U8) (handle : U32)
  | modelRegister (h : Hdr) (desc : U64) (model : U8)
  | modelEvict (h : Hdr) (model : U8)
  | adapterRegister (h : Hdr) (table : U64) (model : U8) (adapter : U16) (version : U16) (rank : U16)
  | adapterRetire (h : Hdr) (model : U8) (adapter : U16) (version : U16) (force : U8)
  | expertSet (h : Hdr) (mask : U64) (model : U8) (set : U16)
  | turnToLearn (h : Hdr) (mode : U8)
  | turnToGenerate (h : Hdr) (pver : U16)
  | learnConfig (h : Hdr) (tokens : U32) (window : U16) (stash : U64)
  | optStepDone (h : Hdr) (pver : U16)
  | stalenessCap (h : Hdr) (cap : U16)
  | seedSet (h : Hdr) (key : U128)
  | streamOpen (h : Hdr) (cls : U8) (rid : U32)
  | streamClose (h : Hdr) (stream : U32)
  | counterLatch (h : Hdr) (group : U16) (edge : U8)
  | watchSet (h : Hdr) (flags : U32) (rid : U32)
  | doorbell (tc : U8) (tail : U32)
  | statusRingHeadWrite (tc : U8) (head : U32)
  | ringEnable (tc : U8) (ctrl : U32) (priv : Bool)
  | vectorCtrlWrite (v : VecId) (ctrl : U32) (priv : Bool)
  | holdCauseClear (val : U32)
  | steepLoad (val : U32)
  | steepVerifyComplete
  | wake (val : U32)
  | hangTake (val : U32)
  | laneAdvice (sel : U32)
  | grantEnable (val : U64)
  | xsetEnable (val : U64)
  | indexEnable (val : U32)
  | relayEnable (val : U64)
  | bqHeadWrite (head : U32)
  | orderReport (val : U64)
  | registerWrite (off : Offset) (size64 : Bool) (val : U64) (priv : Bool)
  | rcRead (off : Offset) (size64 : Bool) (priv : Bool)
  | lowHalfReadLatch (off : Offset) (priv : Bool)
  | logitsBlock (port : Quad) (tag : U64) (payload : List Byte)
  | partialArrival (src : Quad) (row : RowNo) (pair : BitVec 2)
  | doneMarker (src dst : Quad)
  | stepDone (port : Quad) (tag : U64)
  | tokenRecordIssue (row : RowNo)
  | verifyItem (row : RowNo)
  | draftRound (slot : U16)
  | stashWord (port : Quad) (tag : U64) (payload : List Byte)
  | laneWord (port : Quad) (tag : U64) (payload : List Byte)
  | laneReport (port : Quad) (tag : U64) (payload : List Byte)
  | amaxWord (port : Quad) (tag : U64) (payload : List Byte)
  | digestWord (port : Quad) (tag : U64) (payload : List Byte)
  | walkEffect (slot : U16)
  | memoryResponse (port : Quad) (tag : U8) (err : Bool) (data : List Byte)
  | memTimeout (port : Quad) (tag : U8)
  | beacon (msg : List Byte)
  | beaconInterval
  | peerDepartureTimer (peer : U32)
  | depart (msg : List Byte)
  | probe (msg : List Byte)
  | probeReply (msg : List Byte)
  | offsetProbeRound (peer : U32)
  | offer (msg : List Byte)
  | accept (msg : List Byte)
  | refuse (msg : List Byte)
  | complete (msg : List Byte)
  | abort (msg : List Byte)
  | batonTimeout (baton : U32)
  | kettleFrameReset
  | kettleNop (addr : U8) (arg : U32) (crc : U8)
  | status (addr : U8) (arg : U32) (crc : U8)
  | read (addr : U8) (arg : U32) (crc : U8)
  | kettleWake (addr : U8) (arg : U32) (crc : U8)
  | arbitrate (addr : U8) (arg : U32) (crc : U8)
  | wakeIn (ns : Nat)
  | sleepCpAccessWake (a : CpAccess)
  | wakeStageReady
  | entryStepComplete
  | quiesceTimeout (tiles : List TileAt)
  | stopGating
  | tileIdleTimeout (tile : TileAt)
  | supplyWarning
  | supplyWarningEnd
  | brownOut
  | brownOutRecovery (straps : U8) (found : ExitFinds)
  | rstN (high : Bool) (vddaOk : Bool) (straps : U8) (found : ExitFinds)
  | retlost
  | testMode (on : Bool) (instrRun : Bool)
  | tbclkLockLoss
  | tbclkRestart
  | faultReport (cls : FaultClass) (tc : U8) (obj : FaultObj) (root : Site) (detail : U64)
      (packet : Option (U8 × U32))
  | faultContainment (cls : FaultClass) (tc : U8) (obj : FaultObj)
  | tenantTeardown (tc : U8) (cls : FaultClass)
  | faultRecordClose (q : Quad) (index : Nat)
  | faultInterruptRelease (cls : FaultClass)
  | stitchLinkError (link : Quad)
  | quadrantRejoin (q : Quad) (src : Quad)
  | hangWatchdog
  | freezeMarker (q : Quad) (higher : Bool)
  | captureRelease
  | pcSample (sq : U4) (stall : U8) (pc : U16) (qcyc : U32) (waitOn : TileAt)
  | traceFrame
  | alignmentMarker
  | manifestPortCredit (port : Quad)
  | registerRead (off : Offset) (size64 : Bool) (priv : Bool)
  | discardedRelayMessage (msg : List Byte) (credit : Bool)
  | kettleUndefinedCmd (addr : U8) (cmd : U8) (arg : U32) (crc : U8)
  | repairWordLoad (bank : BankAt) (word : U64)
  deriving DecidableEq, Repr

end Sys2Proof
end

