-- ==== Sys2Proof/Config.lean ====
section
/-! DEFINITION. What the spec leaves to a part it does not give: uninterpreted constants, no bodies.
Nothing in Lean can evaluate one, so every statement holds whatever its value is. -/

namespace Sys2Proof

namespace Config

/-- What a measured counter has counted since its last reading, by number of the reading (R365, R366: UTIL cycle
counts, memory-port and stitch-link bytes depend on clocks and transfers the model does not count). Free value,
DESIGN CHOICE, log entry 5. -/
opaque measured : Nat → Nat

/-- A 64-bit word of state that a snapshot or a capture records and no rule computes (R378, R382).
Free value, DESIGN CHOICE, log entry 5. -/
opaque snapshotWord : Nat → U64

/-- The value of a count field whose overflow the spec does not state (R402, R409), by register offset,
low bit and reading number. Free value, DESIGN CHOICE, log entry 5. -/
opaque counterOverflow : Nat → Nat → Nat → U64

/-- A value for which the spec states none, by reading number: the version of the last token of a request
that arrives from another engine (R79, R266), a prediction or a measured time past the range of its field
(R300). Free value, DESIGN CHOICE, log entry 5. -/
opaque unstated : Nat → U64

/-- RESULT of a DOORBELL_ERR notice, by tenant context (R53, R60): the spec names no object for it.
Free value, DESIGN CHOICE, log entry 5. -/
opaque doorbellObject : Nat → U64

/-- Whether a tier-1 range, by address and bytes, lies inside the windows granted to a tenant context (R61 check 9): the
spec gives no operation that grants a window. Free value, DESIGN CHOICE, log entry 40. -/
opaque windowGranted : Nat → Nat → Nat → Bool

/-- Word `w` of a captured stitch flit, by the kind of its message, its source, its row and its stream (R382): the spec
gives no flit format. Free value, DESIGN CHOICE, log entry 5. -/
opaque flitWord : Nat → Nat → Nat → Nat → Nat → U64

/-- Word `w` of a captured memory tag, by whether it is valid, whether it writes, and its address (R382): the spec names
the three and gives no layout. Free value, DESIGN CHOICE, log entry 5. -/
opaque tagWord : Bool → Bool → Nat → Nat → U64

/-- The 48 bits of an alignment marker after its block type and lane number (R371). Free value, DESIGN CHOICE,
log entry 5. -/
opaque markerBits : BitVec 48

/-- Whether the ECDSA P-384 signature of a Steep image verifies (R360): the public key is not in the
spec. DESIGN CHOICE, log entry 7. -/
opaque steepVerifies : List Byte → Bool

/-- The SHA-384 digest of a Steep image (R360). DESIGN CHOICE, log entry 7. -/
opaque steepDigest : List Byte → BitVec 384

end Config

end Sys2Proof
end

