-- ==== Sys2Proof/Machine/Bits.lean ====
section
/-! DEFINITION. Helpers over plain data: sparse tables, little-endian bytes, bit fields, CRC-32C and
CRC-8, stride comparison (R33), budget conversion (R39), saturation. -/

namespace Sys2Proof.Machine

/-! ## Sparse tables -/

def tget? {α : Type} : Table α → Nat → Option α
  | [], _ => none
  | (k, v) :: t, n => if k = n then some v else tget? t n

def tget {α : Type} (d : α) (t : Table α) (n : Nat) : α := (tget? t n).getD d

/-- Enter `v` at number `n`, keeping numbers rising. -/
def tset {α : Type} : Table α → Nat → α → Table α
  | [], n, v => [(n, v)]
  | (k, x) :: t, n, v =>
    if n < k then (n, v) :: (k, x) :: t
    else if n = k then (n, v) :: t
    else (k, x) :: tset t n v

def tdel {α : Type} (t : Table α) (n : Nat) : Table α := t.filter (fun p => p.1 != n)

/-- Change the entry at `n`, if there is one. -/
def tmod {α : Type} (t : Table α) (n : Nat) (f : α → α) : Table α :=
  t.map (fun p => if p.1 = n then (p.1, f p.2) else p)

def tkeys {α : Type} (t : Table α) : List Nat := t.map (·.1)

/-- Smallest number below `bound` that is not in the rising list `used`, from `i` upwards. -/
def firstFree : List Nat → Nat → Nat → Option Nat
  | [], i, bound => if i < bound then some i else none
  | u :: us, i, bound =>
    if u < i then firstFree us i bound
    else if u = i then firstFree us (i + 1) bound
    else if i < bound then some i else none

/-- Insert a number into a rising list without repeats. -/
def ninsert : List Nat → Nat → List Nat
  | [], n => [n]
  | k :: t, n => if n < k then n :: k :: t else if n = k then k :: t else k :: ninsert t n

/-- Numbers in `[lo, hi)` not in `used`, lowest first, at most `fuel` of them. -/
def freeFrom (used : List Nat) (lo hi fuel : Nat) : List Nat :=
  match fuel with
  | 0 => []
  | fuel + 1 =>
    match firstFree used lo hi with
    | none => []
    | some n => n :: freeFrom used (n + 1) hi fuel

/-- Insertion into a list ordered by `le`, after equal elements. -/
def insertBy {α : Type} (lt : α → α → Bool) (x : α) : List α → List α
  | [] => [x]
  | y :: ys => if lt x y then x :: y :: ys else y :: insertBy lt x ys

/-- Stable sort by a strict order. -/
def sortBy {α : Type} (lt : α → α → Bool) (l : List α) : List α :=
  l.foldl (fun acc x => insertBy lt x acc) []

/-! ## Bytes and fields -/

/-- Bits `[hi:lo]` of a register value. -/
def bits (v : U64) (hi lo : Nat) : Nat := (v.toNat >>> lo) % 2 ^ (hi - lo + 1)

def bit (v : U64) (n : Nat) : Bool := v.getLsbD n

/-- Bits `[hi:lo]` of a number. -/
def nbits (v hi lo : Nat) : Nat := (v >>> lo) % 2 ^ (hi - lo + 1)

def nbit (v n : Nat) : Bool := v.testBit n

def b2n (b : Bool) : Nat := if b then 1 else 0

/-- Little-endian bytes of a number. -/
def le : Nat → Nat → List Byte
  | 0, _ => []
  | n + 1, v => BitVec.ofNat 8 v :: le n (v / 256)

/-- The number little-endian bytes spell. -/
def ofLe : List Byte → Nat
  | [] => 0
  | b :: bs => b.toNat + 256 * ofLe bs

/-- Field of `n` bytes at byte `off` of a packet or record; bytes beyond its end read 0. -/
def fieldAt (l : List Byte) (off n : Nat) : Nat := ofLe ((l.drop off).take n)

def byteAt (l : List Byte) (off : Nat) : Nat := fieldAt l off 1

def zeros (n : Nat) : List Byte := List.replicate n 0

/-- Pad with zeros, or cut, to `n` bytes. -/
def padTo (n : Nat) (l : List Byte) : List Byte := (l ++ zeros n).take n

/-- Whether bytes `[lo, hi)` are all zero. -/
def zeroRange (l : List Byte) (lo hi : Nat) : Bool := ((l.drop lo).take (hi - lo)).all (· == 0)

/-- Overwrite `n` bytes at `off`. -/
def patch (l : List Byte) (off : Nat) (bs : List Byte) : List Byte :=
  l.take off ++ bs ++ l.drop (off + bs.length)

/-! ## Checksums -/

/-- One byte of CRC-32C (Castagnoli, reflected polynomial 0x82F6_3B78; PRESUMED, log entry 9). -/
def crc32cByte (c : U32) (b : Byte) : U32 :=
  let c := c ^^^ b.setWidth 32
  (List.range 8).foldl (fun c _ => if c.getLsbD 0 then (c >>> 1) ^^^ 0x82F63B78#32 else c >>> 1) c

def crc32c (l : List Byte) : U32 := ~~~ (l.foldl crc32cByte 0xFFFFFFFF#32)

/-- CRC-8, polynomial x^8 + x^2 + x + 1, initial value 0 (R330), most significant bit first. -/
def crc8 (l : List Byte) : U8 :=
  l.foldl (fun c b =>
    (List.range 8).foldl (fun (c : U8) _ => if c.getLsbD 7 then (c <<< 1) ^^^ 0x07#8 else c <<< 1)
      (c ^^^ b)) 0

/-! ## Strides and numbers -/

/-- `a` lies ahead of `b`: their difference modulo 2^48, read signed, is 1 to 2^47 - 1 (R33). -/
def ahead (a b : Stride) : Bool := decide (1 ≤ (a - b).toNat) && decide ((a - b).toNat < 2 ^ 47)

/-- `a` is at or behind `b`. -/
def reached (a b : Stride) : Bool := !ahead a b

/-- The signed difference `a - b` of two strides. -/
def sdiff (a b : Stride) : Int := (a - b).toInt

def maxStr : Nat := 2 ^ 47 - 1

/-- Budget conversion: nanoseconds to strides, rounded up, saturated at 2^47 - 1 (R39). -/
def nsToStr (ns : Nat) (nsps : U32) : Nat :=
  min ((ns * 65536 + nsps.toNat - 1) / nsps.toNat) maxStr

def ceilDiv (a b : Nat) : Nat := (a + b - 1) / b

/-- Deadline code for none (R75). -/
def noDl : Stride := 0xFFFFFFFFFFFF#48

/-- A deadline stride: a result equal to the code for none is stored one stride earlier (R75). -/
def deadline (base : Stride) (n : Nat) : Stride :=
  let d := base + BitVec.ofNat 48 n
  if d = noDl then 0xFFFFFFFFFFFE#48 else d

/-- Version `a` is ahead of `b` (R258). -/
def verAhead (a b : U16) : Bool := decide (1 ≤ (a - b).toNat) && decide ((a - b).toNat < 2 ^ 15)

/-- Add to a counter of `w` bits, saturating. -/
def satAdd (w v n : Nat) : Nat := min (v + n) (2 ^ w - 1)

/-- Limit to the range of an i32 (R93). -/
def sat32 (x : Int) : Int := max (-2147483648) (min 2147483647 x)

def countTrue (l : List Bool) : Nat := (l.filter id).length

/-- Number of set bits among the lowest `n`. -/
def popc (v : U64) (n : Nat) : Nat := ((List.range n).filter (fun i => v.getLsbD i)).length

def setBits (l : List Nat) : U64 := l.foldl (fun v i => v ||| (1#64 <<< i)) 0

def minOf (l : List Nat) (d : Nat) : Nat :=
  match l with
  | [] => d
  | x :: xs => xs.foldl min x

def maxOf (l : List Nat) (d : Nat) : Nat :=
  match l with
  | [] => d
  | x :: xs => xs.foldl max x

end Sys2Proof.Machine
end

