-- ==== Sys2Proof/Machine/State.lean ====
section
/-! DEFINITION. The state of the T9 as plain data: every register, table, queue and mode the spec
gives the engine, the queue of waiting commands, and the state right after reset. Registers the manual
numbers stand in `Engine.regs` by window offset, sparse over the reset table of Machine/Registers.lean. -/

namespace Sys2Proof.Machine

/-! ## Requests (04_request_table_and_admission.md) -/

/-- STATE codes of a request record (R75). A FREE slot has no record. -/
inductive RState where
  | admitted | prefilling | running | paused | parked | handedOff | finished | cancelled | failed
  deriving DecidableEq, Repr

/-- A block-table entry of a request (R212): LOC, ID, the index node on which the request holds a
reference, and the expiry of a tier block of its own (R229); `walked` when a walk took the node (R232). -/
structure BtEntry where
  loc : Nat
  id : Nat
  node : Option Nat
  exp : Option Stride
  walked : Bool := false
  deriving DecidableEq, Repr

/-- An index walk under way (R223, R224). `key` is the place of its starting command in R42. -/
structure Walk where
  eff : Stride
  n : Nat
  resume : Bool
  due : Bool
  deriving DecidableEq, Repr

/-- A draft node (R163, R165). -/
structure DNode where
  tok : U24
  parent : Nat
  depth : Nat
  lq : Int
  expanded : Bool
  deriving DecidableEq, Repr

/-- Draft state of a request (R163-R170): nodes 1.. in order, PKV, the open round. -/
structure Draft where
  nodes : List DNode
  rootExpanded : Bool
  pkv : Nat
  round : Option (Nat × Nat)
  lead : Nat
  deriving DecidableEq, Repr

/-- Host-written fields of the request record, bytes 0-95 (R74). -/
structure Desc where
  rid : U32
  model : Nat
  lc : Bool
  rollout : Bool
  fallbackEn : Bool
  lateRule : Nat
  greedy : Bool
  logprobEn : Bool
  prio : Nat
  topn : Nat
  maxTokens : Nat
  promptLen : Nat
  budgetNs : Nat
  firstNs : Nat
  stopHandle : U32
  promptAddr : Nat
  maskHandle : U32
  adjHandle : U32
  adapter : Nat
  adapterVer : Nat
  expset : Nat
  temp : U16
  topk : Nat
  topp : Nat
  minp : Nat
  specMax : Nat
  pres : U16
  freq : U16
  salt : U32
  minTokens : Nat
  deriving DecidableEq, Repr

/-- Engine-owned fields of the request record, bytes 96-127 (R75). -/
structure EngRec where
  parkCause : Nat
  theld : Bool
  st : RState
  seq : Nat
  reason : Nat
  pinVer : Nat
  fbk : Bool
  lateSeen : Bool
  repin : Bool
  pvset : Bool
  gen : Nat
  stopm : U32
  kvpos : Nat
  dl : Stride
  ft : Stride
  pverMin : U16
  wait : Nat
  deriving DecidableEq, Repr

/-- Working state the engine keeps with a request. `uid` tells requests that reuse a RID apart; `lastPver`
is the PVER of the last token issued, `roHeld` whether the last fill held the request back for want of store
room (R266). -/
structure Work where
  aslot : Option Nat
  prefixHit : Nat
  kvReady : Bool
  notBefore : Option Stride
  walk : Option Walk
  waitOrd : List Nat
  table : List BtEntry
  pages : List Nat
  priv : Bool
  pauseDue : Option (Nat × Nat)
  kvposPause : Nat
  repinTok : Bool
  repinDue : Bool
  lateHeat : Bool
  roHeld : Bool
  holdEnd : Option Stride
  freeNext : Bool
  window : List U24
  winDue : Bool
  draft : Draft
  watch : U4
  baton : Option Nat
  received : Bool
  uid : Nat
  lastPver : U16
  deriving DecidableEq, Repr

structure Req where
  tc : Nat
  d : Desc
  e : EngRec
  w : Work
  deriving DecidableEq, Repr

/-- A spill-area record (R78): its entry and the order of parking (R84). -/
structure Parked where
  entry : Nat
  seq : Nat
  req : Req
  deriving DecidableEq, Repr

structure ReqSt where
  slots : Table Req
  parked : List Parked
  parkSeq : Nat
  tblgen : Table Nat
  tblBump : List Nat
  nextUid : Nat
  deriving DecidableEq, Repr

/-! ## Commands in flight (03_command_packets.md) -/

/-- Decoded opcode and parameters of an accepted packet (R64). -/
inductive Cmd where
  | nop
  | setStrideRate (nsps : U32)
  | policyLoad (addr : U64) (bytes : U32)
  | planLoad (addr : U64) (model : U8) (count : U16)
  | tenantOpen (qos : U64)
  | tenantClose (mode : U8)
  | tenantQos (qos : U64)
  | laneGrant (mask : U64)
  | laneReclaim (mask : U64) (budget : U32)
  | contextSave (addr : U64) (bytes : U32)
  | contextRestore (addr : U64) (bytes : U32)
  | resetScope (scope : U8) (index : U8)
  | powerState (state : U8) (scope : U8) (quad : U8)
  | capture (addr : U64)
  | admitReq (rid : U32) (desc : U64)
  | pause (rid : U32) (ttl : U32) (tier : U8)
  | resume (rid : U32)
  | cancel (rid : U32)
  | setBudget (rid : U32) (maxTokens : U32) (budgetNs : U64)
  | handoff (rid : U32) (peer : U32)
  | regionPublish (addr : U64) (bytes : U32) (kind : U8) (handle : U32)
  | modelRegister (desc : U64) (model : U8)
  | modelEvict (model : U8)
  | adapterRegister (table : U64) (model : U8) (adapter : U16) (version : U16) (rank : U16)
  | adapterRetire (model : U8) (adapter : U16) (version : U16) (force : U8)
  | expertSet (mask : U64) (model : U8) (set : U16)
  | turnToLearn (mode : U8)
  | turnToGenerate (pver : U16)
  | learnConfig (tokens : U32) (window : U16) (stash : U64)
  | optStepDone (pver : U16)
  | stalenessCap (cap : U16)
  | seedSet (key : U128)
  | streamOpen (cls : U8) (rid : U32)
  | streamClose (stream : U32)
  | counterLatch (group : U16) (edge : U8)
  | watchSet (flags : U32) (rid : U32)
  deriving DecidableEq, Repr

/-- An accepted packet: effect stride (R40, R58), preparation reads not yet answered, whether one
returned an uncorrectable error, whether its effect stride has passed (R59). -/
structure Acc where
  h : Hdr
  cmd : Cmd
  eff : Stride
  reads : Nat
  err : Bool
  late : Bool
  deriving DecidableEq, Repr

/-- A status-ring entry before its PHASE and STAMP are known (R60, R361, R364). `raw` holds the
bytes of a record of KIND 0x01 or 0x03. -/
structure StEntry where
  kind : Nat
  status : U8
  opcode : U8
  tag : U32
  ridx : U16
  estr : Stride
  result : BitVec 48
  target : U8
  raw : List Byte
  vec : Option VecId
  deriving DecidableEq, Repr

/-! ## Tenants (13_tenants_lanes_preemption.md) -/

/-- Tenant context states (R283). -/
inductive TState where
  | free | opened | closing | torn
  deriving DecidableEq, Repr

/-- QoS record in force (R289, R290). -/
structure Qos where
  lcShare : Nat
  dpShare : Nat
  beWeight : Nat
  slotQuota : Nat
  parkQuota : Nat
  memShare : Nat
  slowThr : Nat
  deriving DecidableEq, Repr

/-- A Brew stream of a tenant (R191-R195). `clearing` is set between its close and the boundary that
frees its number. -/
structure Strm where
  cls : Nat
  rid : U32
  salt : U32
  base : U32
  clearing : Bool
  deriving DecidableEq, Repr

/-- Turn states (R260). -/
inductive LState where
  | gen | turning | idle | opened | granted
  deriving DecidableEq, Repr

/-- A rollout record of the tenant's store (R266). `st` is 1 WAITING, 2 PACKED, 3 USED. -/
structure Rollout where
  rid : U32
  model : Nat
  seq : Nat
  reason : Nat
  lateSeen : Bool
  fbk : Bool
  repin : Bool
  invalid : Bool
  st : Nat
  fseq : Nat
  promptLen : Nat
  gen : Nat
  pverMin : U16
  pverLast : U16
  fstr : Stride
  mb : Nat
  promptAddr : Nat
  adapter : Nat
  pinVer : Nat
  expset : Nat
  window : Nat
  stamp : Stamp
  uid : Nat
  deriving DecidableEq, Repr

/-- Learning state of a tenant (R260, R274). -/
structure TLearn where
  ls : LState
  park : Bool
  cap : Nat
  tokens : Nat
  window : Nat
  stash : Nat
  lver : U16
  twin : U32
  fseq : Nat
  store : Table Rollout
  turnPkts : List Hdr
  deriving DecidableEq, Repr

/-- A status entry written and not yet known visible (R60): its ring index, whether its write response
has come, the vector it raises. -/
structure SrWrite where
  idx : U32
  seen : Bool
  vec : Option VecId
  deriving DecidableEq, Repr

/-- Ring and reply state of a tenant (R52-R60, R423). -/
structure TRing where
  phase : Bool
  inflight : List SrWrite
  waiting : List StEntry
  lostEv : Nat
  accepted : List Acc
  prevE : Option Stride
  deriving DecidableEq, Repr

/-- Deadline events of the last heat and of this boundary (R135). -/
structure TDl where
  late : Nat
  fbk : Nat
  risk : Nat
  deriving DecidableEq, Repr

structure Tenant where
  st : TState
  fclass : U8
  qos : Qos
  vt : U64
  closeAsked : Bool
  tseed : U128
  opencnt : U32
  streams : Table Strm
  learn : TLearn
  ring : TRing
  dl : TDl
  dflt : U4
  smax : Nat
  latchNo : U32
  deriving DecidableEq, Repr

/-! ## Plans, policy, models, variants -/

/-- A row-class descriptor (R100). -/
structure RowClass where
  kind : Nat
  draft : Nat
  count : Nat
  chunk : Nat
  first : Nat
  ctxMax : Nat
  beOnly : Bool
  lcOnly : Bool
  deriving DecidableEq, Repr

/-- A heat plan (R100). -/
structure Plan where
  learn : Bool
  rows : Nat
  cost : Nat
  dfloor : Nat
  stash : Nat
  memb : Nat
  cls : List RowClass
  deriving DecidableEq, Repr

/-- Plan-store reservation of a PLAN_LOAD between its fetch and its effect (R103). -/
structure Resv where
  ridx : U32
  entries : List Nat
  deriving DecidableEq, Repr

/-- `store` holds the shares of the four quadrants, by home (R23, R25); `pf` names the quadrants whose PF0 holds the
policy in use (R25, R397). -/
structure PlanSt where
  store : Table Plan
  resv : List Resv
  pf : U4
  deriving DecidableEq, Repr

/-- One predicate of a policy stage (R94). -/
structure Pred where
  attr : Nat
  op : Nat
  const : U32
  deriving DecidableEq, Repr

/-- One stage of the policy fabric (R94). -/
structure Stage where
  kind : Nat
  preds : List Pred
  src : Nat
  shift : Nat
  weight : Int
  table : Nat
  tlen : Nat
  deriving DecidableEq, Repr

/-- A policy image in use (R94, R96). -/
structure Policy where
  stages : List Stage
  tbl : List Int
  digest : BitVec 48
  deriving DecidableEq, Repr

/-- A registered model: descriptor (R240), plan list (R102), projection constants (R123), learn
constants (R268), USE of the open and of the last closed counter window (R244), last plan image
(R397). -/
structure Model where
  variant : Nat
  pacer : Nat
  vocab : Nat
  nexp : Nat
  nshared : Nat
  nset : Nat
  loadCost : Nat
  bytes : Nat
  lanes : U64
  plans : List Nat
  dstep : Nat
  pchunk : Nat
  pstep : Nat
  lch : Option Nat
  lspt : Nat
  useNow : Nat
  useLast : Nat
  deriving DecidableEq, Repr

/-- Adapter slot states (R246). A FREE slot has no entry. -/
structure ASlot where
  retired : Bool
  resident : Bool
  tc : Nat
  model : Nat
  adapter : Nat
  version : Nat
  rank : Nat
  table : Nat
  deriving DecidableEq, Repr

/-- An expert-visibility set (R255): `owner` none while its table entry waits to be zeroed. -/
structure XSet where
  owner : Option Nat
  addr : Nat
  deriving DecidableEq, Repr

/-- A published region (R421). -/
structure Region where
  kind : Nat
  addr : Nat
  bytes : Nat
  deriving DecidableEq, Repr

/-! ## Heats and the sampler (05, 07, 08) -/

/-- A candidate index with its z and yq (R153). `zo` orders fp32 values. -/
structure Cand where
  idx : Nat
  z : U32
  zo : Int
  yq : Int
  deriving DecidableEq, Repr

/-- A lane's partial for one stream of one row (R158). `pairs` keeps the yq of every index of a
PAIR 1 stream, which R175 weighs index by index. -/
structure Part where
  count : Nat
  accS : Nat
  accY : Int
  excl : Nat
  best : Option (Int × Nat)
  cands : List Cand
  maxZ : Option Cand
  clamp : Bool
  nNan : Nat
  nClamp : Nat
  digest : U64
  pairs : List (Nat × Int)
  deriving DecidableEq, Repr

/-- One quadrant's share of a stream (R139). -/
structure QStream where
  seen : Bool
  last : Bool
  part : Part
  deriving DecidableEq, Repr

/-- A stream of a row: 0 row stream, 1 paired stream, 2 round stream (R137). -/
structure Stream where
  row : Nat
  pair : Nat
  q0 : QStream
  q1 : QStream
  q2 : QStream
  q3 : QStream
  merged : Part
  broken : Bool
  deriving DecidableEq, Repr

/-- A row of the current heat that is not EMPTY (R119, R270). `node` is the draft node of a VERIFY
row; `lead` its lead row. `mask`, `adj` are the regions in force at the boundary (R421); `d`, `gen`, `win`, `key`, `dl`, `ft` what
sampling the row reads of its request (R130, R143, R146, R157); `tokn`, `parent`, `lq`, `expanded` those of
its draft node (R165). -/
structure HRow where
  row : Nat
  kind : Nat
  slot : Nat
  lead : Nat
  node : Nat
  paired : Bool
  cls : Nat
  draft : Nat
  tc : Nat
  rid : U32
  lc : Bool
  fbk : Bool
  rollout : Bool
  logits : Bool
  watch : U4
  pos : Nat
  ntok : Nat
  aseg : Nat
  expset : Nat
  btref : U32
  sgrant : U32
  mask : Option (Nat × Nat)
  adj : Option (Nat × Nat)
  chunk : Option (Nat × Nat)
  d : Desc
  gen : Nat
  win : List U24
  key : U128
  dl : Stride
  ft : Stride
  uid : Nat
  tokn : U24
  parent : Nat
  lq : Int
  expanded : Bool
  issued : Bool
  deriving DecidableEq, Repr

/-- A segment record (R118). -/
structure Seg where
  aslot : Nat
  adapter : Nat
  version : Nat
  rank : Nat
  nrows : Nat
  table : Nat
  deriving DecidableEq, Repr

/-- The heat computing or last computed (R105-R119). -/
structure Heat where
  num : U32
  epoch : U32
  stride : Stride
  plan : Option Nat
  model : Nat
  learn : Bool
  csr : Bool
  nrows : Nat
  cost : Nat
  pver : U16
  rows : List HRow
  segs : List Seg
  tok : Nat
  vocab : Nat
  streams : List Stream
  done : U4
  wvers : List (Quad × U16)
  markers : List (Quad × Quad)
  prevBlk : Table (Nat × Nat × Nat)
  stepAt : Table Stride
  deriving DecidableEq, Repr

/-- A partial under way to its home quadrant (R139): for a round stream the node its round expands (R166), and
whether it has a credit of the link ends on its way, or waits for one at its sender (R30). -/
structure Flight where
  src : Quad
  row : Nat
  pair : Nat
  node : Nat
  part : Part
  sent : Bool
  deriving DecidableEq, Repr

structure HeatSt where
  count : U32
  cur : Option Heat
  flights : List Flight
  lastPlan : U16
  lastFilled : U16
  lastHeat : U32
  deriving DecidableEq, Repr

/-! ## KV blocks, index, Batons (10_kv_prefix_and_pools.md) -/

/-- A node of the KV index (R219). -/
structure Node where
  hash : U128
  parent : Option Nat
  fchild : Option Nat
  nsib : Option Nat
  loc : Nat
  moving : Bool
  lost : Bool
  id : Nat
  refs : Nat
  depth : Nat
  lastUse : Stride
  expiry : Option Stride
  model : Nat
  dropOnMove : Bool
  deriving DecidableEq, Repr

/-- What a Baton order carries a block for. `taken` when a walk or an adoption has taken a reference on the node since the
MOVE was issued (R229); `gone` when the node or the table entry is no more, with which of the order's places its completion
frees (R225, R230, R232). -/
inductive OrdFor where
  | moveNode (n : Nat) (taken : Bool) | movePriv (slot k : Nat)
  | fetchNode (n slot k : Nat) | fetchPriv (slot k : Nat)
  | gone (src dst : Bool)
  | send (baton : Nat) | recv (baton : Nat)
  deriving DecidableEq, Repr

/-- A Baton order (R227): OP, MODEL, SRC and DST in block-table entry format, Baton fields. -/
structure Order where
  op : Nat
  purpose : OrdFor
  model : Nat
  src : U32
  dst : U32
  baton : U32
  peer : U32
  blk : Nat
  tc : Nat
  rid : U32
  deriving DecidableEq, Repr

/-- A Baton on this engine (R233-R237). -/
structure Baton where
  sender : Bool
  num : U32
  peer : U32
  slot : Nat
  offered : Option Stride
  accepted : Bool
  left : Nat
  sent : Bool
  deriving DecidableEq, Repr

structure KvSt where
  used : List Nat
  pages : List Nat
  t2 : List Nat
  t3 : List Nat
  nodes : Table Node
  orders : Table Order
  ordWait : List Nat
  nextOrder : Nat
  batons : List Baton
  nextBaton : U32
  deriving DecidableEq, Repr

/-! ## Learning (12_rl_turns_and_learning.md) -/

/-- A micro-batch: store entries in packing order (R269). -/
structure MBatch where
  entries : List Nat
  invalid : Bool
  deriving DecidableEq, Repr

/-- The open window (R269-R276). `chunks` holds the chunks done in the current pass. -/
structure Win where
  num : U32
  model : Nat
  wver : U16
  mbs : List MBatch
  cur : Nat
  bwd : Bool
  chunks : List (Nat × Nat)
  ordinal : Nat
  lastMb : Option Nat
  cause : Nat
  ostr : Stride
  heats : Nat
  spill : U64
  firstInv : Option Nat
  xfail : Nat
  xmiss : Nat
  deriving DecidableEq, Repr

/-- A cross-check of a learn heat (R280). -/
structure Check where
  tensor : Nat
  tilesel : U32
  deriving DecidableEq, Repr

structure LearnSt where
  owner : Option Nat
  lmodel : Nat
  phaseLearned : List Nat
  win : Option Win
  deferred : List (List Nat)
  proj : Nat
  lastCost : Nat
  level : U64
  scale : Table (List U32)
  left : Nat
  lastWin : Option (Nat × Nat)
  amax : Table U32
  digests : Table U32
  checks : List Check
  deriving DecidableEq, Repr

/-! ## Lanes -/

/-- Lane states (R293, LANE_INFO.STATE). -/
inductive LnState where
  | free | granted | saving | releasing
  deriving DecidableEq, Repr

structure Lane where
  st : LnState
  tc : Nat
  region : Option U32
  order : Option U32
  slast : Nat
  smax : Nat
  deriving DecidableEq, Repr

/-- A STOP order that waits for its reclaim's reply: lane, OP, region, PRED (R300). -/
structure LaneDue where
  lane : Nat
  op : Nat
  region : U32
  pred : U32
  deriving DecidableEq, Repr

/-- A LANE_RECLAIM whose SAVED reports are not all in (R300): `stamp` is that of its reply, and `due` the orders that the
reply has still to precede, of the effect stride `istr`. -/
structure Reclaim where
  h : Hdr
  lanes : List Nat
  pred : U32
  stamp : Stamp
  istr : Stride
  due : List LaneDue
  deriving DecidableEq, Repr

/-- `bFree` and `bReqs` are what R297 reads of the last boundary: the FREE lanes, and the LANES of the model of
each request in a slot with its tenant. -/
structure LaneSt where
  lanes : Table Lane
  bFree : U64
  bReqs : List (Nat × U64)
  seq : U32
  reclaims : List Reclaim
  adv : U64
  swPred : U32
  swMeas : U32
  slow : Bool
  deriving DecidableEq, Repr

/-! ## Time, leadership, power, faults -/

/-- Work due at the registered stride and not yet run (R36), in the order of its steps. -/
inductive Duty where
  | nspsWindow | lease | ttl | holds | boundary | boundaryRest | windows
  deriving DecidableEq, Repr

/-- External events registered and waiting for their effect stride (R41). -/
inductive ExtEv where
  | arrive (id tray : U32) (role : BitVec 2) (member major minor : U8) (stamp : Stamp) (epoch : U16)
  | leave (id : U32) (sub : Nat)
  | trayLoss (tray : U32) (ids : List U32)
  | order (num : U32) (fail : Bool)
  | baton (src : U32) (msg : List Byte)
  | lane (kind : Nat) (lane : Nat)
  | nsps (v : U32)
  | teardown (tc : U8) (cls : FaultClass)
  deriving DecidableEq, Repr

structure TimeSt where
  valid : Bool
  bnd : Bool
  num : Stride
  stamp : Stamp
  epoch : U16
  tbRun : Bool
  lockLost : Bool
  nsps : U32
  nspsMeas : U32
  winStamp : Option Stamp
  winBad : Bool
  lostStamp : Stamp
  retStride : Stride
  afterWake : Bool
  strideStamp : Stamp
  hclk : Nat
  deriving DecidableEq, Repr

/-- `recs` holds the replay-event records of the current stride (CODE, SUB, TC, OBJ) until its breaks are
known (R363); `ext` the external events with the stride that was current when each was registered (R41); `fetched`
the packets read of each ring in the round of R54 under way. -/
structure SchedSt where
  agenda : List Duty
  bndWait : Bool
  held : Bool
  brk : BitVec 6
  recs : List (Nat × Nat × Nat × U64)
  replaySeq : U32
  ext : List (Stride × ExtEv)
  fetched : Table Nat
  deriving DecidableEq, Repr

/-- The reload of a quadrant that returns from a reset (R397): reads not yet answered, whether one failed. -/
structure Reload where
  quad : Quad
  reads : Nat
  err : Bool
  deriving DecidableEq, Repr

/-- Leadership state (R391-R395); `held` and `leaseStr` by quadrant, retained. `leaseLost` names the quadrants that
regard the lease as lost (R391), `replOk` those whose copy of the replicated content is good (R20). `outOfQuorum` names quadrants
that a fault keeps out until they are reset, `resetQ` those in reset, `resetRun` the packets that wait for a
reset quadrant to acknowledge the Pacer (R397). -/
structure LeadSt where
  held : Table U32
  leaseStr : Table Stride
  pacer : Option Quad
  epoch : U32
  quorum : U4
  elected : Option (Quad × U32)
  electCount : Nat
  renewing : Bool
  renewWait : List Quad
  acks : U4
  linkUp : U4
  arbMask : Option U4
  outOfQuorum : U4
  resetRun : List (Quad × Hdr)
  resetQ : U4
  leaseLost : U4
  replOk : U4
  reload : List Reload
  deriving DecidableEq, Repr

/-- An entry to STOP under way, of the engine or of one quadrant (R347): a wake event seen. -/
structure Stopping where
  quad : Option Quad
  h : Option Hdr
  wakeSeen : Bool
  deriving DecidableEq, Repr

/-- An entry to IDLE or a deeper state under way, of the engine or of one quadrant (R352): steps
completed, a wake event seen. -/
structure Entry where
  quad : Option Quad
  h : Option Hdr
  target : Nat
  origin : Nat
  step : Nat
  wakeSeen : Bool
  deriving DecidableEq, Repr

/-- A wake under way (R358): the state woken from and the stages not yet ready. -/
structure Waking where
  quad : Option Quad
  origin : Nat
  stages : List Nat
  deriving DecidableEq, Repr

/-- Power state. `eng` and `quads` hold the state codes of R345, a quadrant without an entry being in the
engine's; `back` the state to which a wake returns, by unit (0-3 quadrants, 4 engine); `owed` the POWER_STATE packets
that wait for a wake; `held` the control-port accesses that wait for one; `steepLen` the image length of the
Steep resume state; `steepMatch` that a reload must match the retained digest (R359); `steepReads` the image reads not
yet answered and `steepErr` whether one failed (R360); `lastKat` the outcome of the last known-answer check; `ungated`
the units in STOP whose wake is complete (R346); `anchorLost` the contexts whose anchors were cleared with an invalid
retention region and not written since (R340); `failing` the banks that fail (R414). -/
structure PwrSt where
  eng : Nat
  quads : Table Nat
  steep : Nat
  digest : BitVec 384
  steepLen : Nat
  steepMatch : Bool
  bor : Bool
  retlost : Bool
  retlostSticky : Bool
  vwarn : Bool
  vwarnNow : Bool
  vwStart : Stamp
  vwAgain : Bool
  holdRstN : Bool
  holdBor : Bool
  holdTest : Bool
  placementBad : Bool
  testInstr : Bool
  coreOk : Bool
  lastKat : Option U16
  stopping : List Stopping
  entry : List Entry
  waking : List Waking
  owed : List (Nat × Hdr)
  held : List CpAccess
  back : Table Nat
  repair : List (BankAt × U64)
  steepReads : Nat
  steepErr : Bool
  ungated : List Nat
  anchorLost : List Nat
  failing : List BankAt
  deriving DecidableEq, Repr

/-- A fault record (R387). -/
structure FRec where
  cls : FaultClass
  scope : Nat
  tc : U8
  opened : Bool
  count : U32
  root : HAddr
  reporter : HAddr
  fstr : Stride
  lstr : Stride
  epoch : U16
  first : Stamp
  last : Stamp
  detail : U64
  ord : Nat
  deriving DecidableEq, Repr

/-- A containment action registered for the next stride (R383). -/
structure Contain where
  cls : FaultClass
  tc : U8
  obj : FaultObj
  deriving DecidableEq, Repr

/-- Fault state (R383-R390). `resets` holds the RESET_SCOPE packets whose tenant teardown is registered. -/
structure FltSt where
  recNo : Nat
  kat : Bool
  stride : Bool
  fault : Bool
  quad : Bool
  recs : Table FRec
  rootRec : Option (Nat × Nat)
  rootHaddr : HAddr
  rootCls : U8
  rootScope : Nat
  rootValid : Bool
  due : List Contain
  resets : List (Nat × Hdr)
  raised : List (FaultClass × Stamp)
  heldRaise : List FaultClass
  deriving DecidableEq, Repr

/-! ## Ports, relay, kettle -/

/-- A host status word registered and not yet sampled (R43); a lane's STEP report with the boundary, COST and model of
its heat (R298). -/
inductive Word where
  | stash (level spill : U64)
  | region (lane : Nat) (r : U32)
  | step (lane : Nat) (start : Stride) (cost model : Nat)
  | amax (heat : U32) (tensor : Nat) (v : U32)
  | digest (heat : U32) (tensor check : Nat) (err : U32)
  deriving DecidableEq, Repr

/-- A manifest-port unit (R317). -/
structure MpUnit where
  record : Bool
  som : Bool
  bytes : List Byte
  deriving DecidableEq, Repr

structure MpPort where
  queue : List MpUnit
  crd : Nat
  sent : List MpUnit
  deriving DecidableEq, Repr

/-- Who waits for a memory request (R319): a packet's preparation, a status entry, a walk (R223), a penalty window that is
rebuilt (R305), a quadrant's
reload (R397), the Steep image (R360); `late` marks a tag that timed out and whose response may still come (R320). -/
inductive MemWho where
  | prep (tc : U8) (ridx : U32)
  | status (tc : Nat) (idx : U32)
  | walk (slot : Nat)
  | window (slot : Nat)
  | reload (q : Quad)
  | steep
  | late
  | none
  deriving DecidableEq, Repr

structure MemReq where
  port : Quad
  write : Bool
  addr : Nat
  who : MemWho
  deriving DecidableEq, Repr

/-- An interrupt message write (R302, R311). -/
structure Msg where
  addr : U64
  data : U32
  deriving DecidableEq, Repr

/-- Response of the CP target channel (R309). -/
structure CpRsp where
  data : U64
  err : Bool
  deriving DecidableEq, Repr

/-- `crd` holds the drain credits of each port, `buf` the accepted blocks that wait for its lanes, and `drr` the tenant
whose turn it is there with the blocks left of its quantum (R292); `words` the status words with the port of each;
`owed` the messages of a teardown that wait for room behind the 256 queued, each vector with PEND set (R287, R311);
`rsp` the responses the target channel has given, in order (R309). -/
structure PortSt where
  crd : Table Nat
  buf : Table (List (U64 × List Byte))
  drr : Table (Nat × Nat)
  words : List (Quad × Word)
  mp : Table MpPort
  tags : List (Nat × MemReq)
  memWait : List MemReq
  msgs : List Msg
  owed : List (VecId × Msg)
  sent : List Msg
  rsp : List CpRsp
  deriving DecidableEq, Repr

/-- A peer-table entry (R325); `epoch` is the stamp epoch of its last message (R49). -/
structure Peer where
  id : U32
  tray : U32
  role : BitVec 2
  member : U8
  major : U8
  minor : U8
  lastBeacon : Stamp
  ofs : Option U64
  epoch : U16
  deriving DecidableEq, Repr

/-- An offset probe round (R329): `peerEpoch` is the peer's epoch when the PROBEs were sent. -/
structure ProbeRound where
  peer : U32
  epoch : U16
  peerEpoch : U16
  sent : Table Stamp
  kept : List (Int × Int)
  answered : Nat
  deriving DecidableEq, Repr

/-- `crd` is the flits of receive credit the host holds (R321). -/
structure RelaySt where
  crd : Nat
  peers : Table Peer
  seq : U32
  out : List (List Byte)
  rounds : List ProbeRound
  deriving DecidableEq, Repr

structure KetSt where
  deaf : Bool
  reply : List Byte
  deriving DecidableEq, Repr

/-! ## Observation (16_observability.md) -/

/-- A trace lane (R371): its scrambler and the blocks sent, sync header and scrambled payload. -/
structure TLane where
  scr : BitVec 58
  sent : List (BitVec 2 × U64)
  deriving DecidableEq, Repr

structure TraceSt where
  queue : List (Nat × List Byte)
  fseq : U32
  lost : Nat
  sent : List (List Byte)
  markers : Nat
  lanes : Table TLane
  deriving DecidableEq, Repr

/-- A quadrant's hang snapshot (R377). -/
structure Hang where
  frozen : Bool
  words : List U64
  base : Nat
  snapNo : U32
  missed : U32
  deriving DecidableEq, Repr

/-- A photo-finish capture in progress or done (R379-R382). `asked` is the packet that waits for its capture
stride with its address and the status it will reply (R66). -/
structure CapSt where
  asked : Option (Hdr × U64 × Nat)
  atOnce : Bool
  busy : Bool
  valid : Bool
  cstr : Stride
  addr : Nat
  h : Option Hdr
  stamp : Stamp
  cutStamp : Stamp
  markers : List (Quad × Bool)
  held : List Instr
  deriving DecidableEq, Repr

/-- Everything the engine holds but the queue of commands. -/
structure Engine where
  mem : List Host.Cell
  bad : List Nat
  regs : Table U64
  hiLatch : Table U32
  wrLatch : Table U32
  time : TimeSt
  sched : SchedSt
  lead : LeadSt
  pwr : PwrSt
  flt : FltSt
  ten : Table Tenant
  rq : ReqSt
  plans : PlanSt
  pol : Option Policy
  models : Table Model
  images : Table (Nat × Nat × Nat)
  advice : Nat × Nat
  aslots : Table ASlot
  xsets : Table XSet
  regions : Table Region
  heat : HeatSt
  kv : KvSt
  pver : U16
  learn : LearnSt
  lanes : LaneSt
  port : PortSt
  relay : RelaySt
  ket : KetSt
  cnt : Table U64
  trace : TraceSt
  hang : Table Hang
  cap : CapSt
  latchNo : U32
  free : Nat
  deriving DecidableEq, Repr

/-- The machine: the engine and the commands that wait, first in, first out. -/
structure State where
  eng : Engine
  pending : List Instr
  deriving DecidableEq, Repr

/-- Reasons the model stops. No command of the T9 ends in one: the engine reports its own faults in
its state (R383). -/
inductive Fault where
  /-- Raised by nothing: kept so that the outcome type is inhabited by a named reason. Safe. -/
  | none
  deriving DecidableEq, Repr

/-- Reasons the model refuses a command. -/
inductive Refusal where
  /-- Raised by Machine/Dispatch.lean for a row that has no meaning yet. Safe. -/
  | notModelled (mnemonic : String)
  deriving DecidableEq, Repr

/-! ## Reset values -/

def Part.empty : Part :=
  { count := 0, accS := 0, accY := 0, excl := 0, best := none, cands := [], maxZ := none,
    clamp := false, nNan := 0, nClamp := 0, digest := 0, pairs := [] }

/-- No draft. PKV, for which no starting value is stated, is 0 (DESIGN CHOICE, log entry 116). -/
def Draft.empty : Draft := { nodes := [], rootExpanded := false, pkv := 0, round := none, lead := 0 }

/-- The QoS of a context without a record; a context in FREE uses none of it (DESIGN CHOICE, log entry 2). -/
def Qos.none : Qos :=
  { lcShare := 0, dpShare := 1, beWeight := 0, slotQuota := 0, parkQuota := 0, memShare := 1, slowThr := 0 }

/-- The record in force for TC0 at reset (R290). -/
def Qos.tc0 : Qos :=
  { lcShare := 16384, dpShare := 256, beWeight := 256, slotQuota := 65536, parkQuota := 4194304,
    memShare := 256, slowThr := 0 }

/-- Learning state as TENANT_OPEN leaves it (R274), with LVER the engine PVER. -/
def TLearn.fresh (pver : U16) : TLearn :=
  { ls := .gen, park := false, cap := 0, tokens := 0, window := 1, stash := 2 ^ 64 - 1, lver := pver,
    twin := 0, fseq := 0, store := [], turnPkts := [] }

def TRing.fresh : TRing := { phase := true, inflight := [], waiting := [], lostEv := 0, accepted := [], prevE := none }

/-- A tenant context after engine reset (R282, R290, R396). -/
def Tenant.fresh (tc : Nat) : Tenant :=
  { st := if tc = 0 then .opened else .free, fclass := 0, qos := if tc = 0 then Qos.tc0 else Qos.none,
    vt := 0, closeAsked := false, tseed := BitVec.ofNat 128 tc, opencnt := 0, streams := [],
    learn := TLearn.fresh 0, ring := TRing.fresh, dl := { late := 0, fbk := 0, risk := 0 },
    dflt := 0, smax := 0, latchNo := 0 }

def Lane.fresh : Lane :=
  { st := .free, tc := 0, region := none, order := none, slast := 0, smax := 0 }

def MpPort.fresh : MpPort := { queue := [], crd := 8, sent := [] }

def Hang.fresh : Hang := { frozen := false, words := [], base := 0, snapNo := 0, missed := 0 }

def TimeSt.fresh : TimeSt :=
  { valid := false, bnd := false, num := 0, stamp := 0, epoch := 0, tbRun := true, lockLost := false,
    nsps := 0x03E80000, nspsMeas := 0, winStamp := none, winBad := false, lostStamp := 0,
    retStride := 0, afterWake := false, strideStamp := 0, hclk := 0 }

def SchedSt.fresh : SchedSt :=
  { agenda := [], bndWait := false, held := false, brk := 0, recs := [], replaySeq := 0, ext := [], fetched := [] }

def LeadSt.fresh : LeadSt :=
  { held := [], leaseStr := [], pacer := none, epoch := 0, quorum := 0, elected := none,
    electCount := 0, renewing := false, renewWait := [], acks := 0, linkUp := 0xF, arbMask := none,
    outOfQuorum := 0, resetRun := [], resetQ := 0, leaseLost := 0xF, replOk := 0xF, reload := [] }

def PwrSt.fresh : PwrSt :=
  { eng := 2, quads := [], steep := 0, digest := 0, steepLen := 0, steepMatch := false, bor := false,
    retlost := false, retlostSticky := false, vwarn := false, vwarnNow := false, vwStart := 0, vwAgain := false,
    holdRstN := false, holdBor := false, holdTest := false, placementBad := false, testInstr := false,
    coreOk := true, lastKat := none, stopping := [], entry := [], waking := [], owed := [], held := [], back := [],
    repair := [], steepReads := 0, steepErr := false, ungated := [], anchorLost := [], failing := [] }

def FltSt.fresh : FltSt :=
  { recNo := 0, kat := false, stride := false, fault := false, quad := false, recs := [], rootRec := none,
    rootHaddr := 0, rootCls := 0, rootScope := 0, rootValid := false, due := [], resets := [], raised := [],
    heldRaise := [] }

def KvSt.fresh : KvSt :=
  { used := [], pages := [], t2 := [], t3 := [], nodes := [], orders := [], ordWait := [],
    nextOrder := 0, batons := [], nextBaton := 1 }

def LearnSt.fresh : LearnSt :=
  { owner := none, lmodel := 0xFF, phaseLearned := [], win := none, deferred := [], proj := 0,
    lastCost := 0, level := 0, scale := [], left := 16, lastWin := none, amax := [], digests := [], checks := [] }

def HeatSt.fresh : HeatSt :=
  { count := 0, cur := none, flights := [], lastPlan := 0xFFFF, lastFilled := 0, lastHeat := 0 }

def Engine.fresh : Engine :=
  { mem := [], bad := [], regs := [], hiLatch := [], wrLatch := [], time := .fresh, sched := .fresh,
    lead := .fresh, pwr := .fresh, flt := .fresh, ten := [],
    rq := { slots := [], parked := [], parkSeq := 0, tblgen := [], tblBump := [], nextUid := 1 },
    plans := { store := [], resv := [], pf := 0xF }, pol := none, models := [], images := [],
    advice := (0xFF, 0xFF), aslots := [], xsets := [], regions := [], heat := .fresh, kv := .fresh,
    pver := 0, learn := .fresh,
    lanes := { lanes := [], bFree := 2 ^ 64 - 1, bReqs := [], seq := 1, reclaims := [], adv := 0, swPred := 0,
               swMeas := 0, slow := false },
    port := { crd := [], buf := [], drr := [], words := [], mp := [], tags := [], memWait := [], msgs := [], owed := [], sent := [],
              rsp := [] },
    relay := { crd := 512, peers := [], seq := 0, out := [], rounds := [] }, ket := { deaf := false, reply := [] },
    cnt := [], trace := { queue := [], fseq := 0, lost := 0, sent := [], markers := 0, lanes := [] }, hang := [],
    cap := { asked := none, atOnce := false, busy := false, valid := false, cstr := 0, addr := 0, h := none,
             stamp := 0, cutStamp := 0, markers := [], held := [] },
    latchNo := 0, free := 0 }

/-- The machine right after engine reset (R396, R409, R410): IDLE, no Steep image, HOLD with NOLEAD,
every table empty; the fields the spec leaves X at the values of DESIGN CHOICE, log entry 2. -/
def State.reset : State := { eng := Engine.fresh, pending := [] }

end Sys2Proof.Machine
end

