-- ==== Sys2Proof/Machine/Registers.lean ====
section
/-! DEFINITION. The register map (18_register_map.md R400, R407-R410 and the register tables of every
chapter): offsets, widths, access masks and reset values, and the homes of register values. -/

namespace Sys2Proof.Machine

/-- A register: byte offset, width, masks of its RW, RWP, W1C, RC and WO fields (every other bit is RO
or reserved), reset value. A field the spec resets to X stands at 0 (DESIGN CHOICE, log entry 2). -/
structure RegInfo where
  off : Nat
  wide : Bool
  rw : Nat
  rwp : Nat
  w1c : Nat
  rc : Nat
  wo : Nat
  reset : Nat
  deriving DecidableEq, Repr

/-! ## Offsets of the privileged window (R409) -/

def rCP_IPREV : Nat := 0x0
def rCP_CAP0 : Nat := 0x8
def rCP_CAP1 : Nat := 0x10
def rCP_CAP2 : Nat := 0x18
def rCP_CAP3 : Nat := 0x20
def rCP_TIME_CTRL : Nat := 0x100
def rCP_STRIDE : Nat := 0x108
def rCP_NSPS : Nat := 0x110
def rCP_NSPS_MEAS : Nat := 0x114
def rCP_STAMP_EPOCH : Nat := 0x118
def rCP_SPLIT : Nat := 0x120
def rCP_VIEW_ERR : Nat := 0x130
def rCP_GUARD_ERR : Nat := 0x138
def rCP_RESTORE_STAT : Nat := 0x140
def rCP_RELAY_ID : Nat := 0x150
def rCP_RELAY_CFG : Nat := 0x158
def rCP_PEER_SEL : Nat := 0x160
def rCP_PEER_INFO : Nat := 0x168
def rCP_PEER_STAT : Nat := 0x170
def rCP_PEER_OFS : Nat := 0x178
def rCP_RELAY_STAT : Nat := 0x180
def rCP_PORT_ERR : Nat := 0x188
def rRQT_SPILL_BASE : Nat := 0x400
def rRQT_SPILL_CTRL : Nat := 0x408
def rRQT_LIVE : Nat := 0x40C
def rRQT_PARKED : Nat := 0x410
def rRQT_PF_DIGEST : Nat := 0x418
def rRQT_DL_CTRL : Nat := 0x480
def rRQT_DL_RISK : Nat := 0x484
def rRQT_DL_FBK : Nat := 0x488
def rRQT_DL_NOFBK : Nat := 0x48C
def rRQT_DL_LATE : Nat := 0x490
def rRQT_DL_LCANCEL : Nat := 0x494
def rHEAT_CTRL : Nat := 0x500
def rHEAT_MEMB : Nat := 0x508
def rHEAT_LAST : Nat := 0x510
def rHEAT_PLANS : Nat := 0x518
def rHEAT_HELD : Nat := 0x51C
def rHEAT_NOFIT : Nat := 0x520
def rSPR_DRAIN_ERR : Nat := 0x600
def rSPR_ROW_ERR : Nat := 0x608
def rSPR_VALUES : Nat := 0x610
def rSPR_TRUNC : Nat := 0x618
def rSPR_SPEC_CTRL : Nat := 0x640
def rSPR_DRAFT_BASE : Nat := 0x648
def rSPR_SPEC_CNT : Nat := 0x650
def rSPR_SPEC_ERR : Nat := 0x658
def rBRW_GRANT_BASE : Nat := 0x700
def rBRW_KAT : Nat := 0x708
def rBRW_SEEDMIS : Nat := 0x70C
def rBRW_OPEN : Nat := 0x710
def rIDX_CTRL : Nat := 0x800
def rIDX_BASE : Nat := 0x808
def rIDX_KVPOOL : Nat := 0x810
def rIDX_BTDIR_BASE : Nat := 0x818
def rIDX_BTPG_BASE : Nat := 0x820
def rIDX_BTPG_N : Nat := 0x828
def rIDX_TIER : Nat := 0x830
def rIDX_BQ_BASE : Nat := 0x838
def rIDX_BQ_TAIL : Nat := 0x840
def rIDX_BQ_HEAD : Nat := 0x844
def rIDX_BDONE : Nat := 0x848
def rIDX_BCTRL : Nat := 0x850
def rIDX_FREE : Nat := 0x858
def rIDX_STAT : Nat := 0x860
def rIDX_EVSTAT : Nat := 0x868
def rIDX_FULL : Nat := 0x870
def rIDX_BSTAT : Nat := 0x878
def rVAR_MODELS : Nat := 0x900
def rVAR_ADV_CTRL : Nat := 0x908
def rVAR_ADV : Nat := 0x910
def rVAR_XSET_BASE : Nat := 0x918
def rVAR_ASLOT_SEL : Nat := 0x920
def rVAR_ASLOT_INFO : Nat := 0x928
def rVAR_ASTAT : Nat := 0x930
def rVAR_ASLOTS : Nat := 0x938
def rTRN_STATE : Nat := 0xA00
def rTRN_PVER : Nat := 0xA04
def rTRN_STASH_CTRL : Nat := 0xA08
def rTRN_SPILL : Nat := 0xA10
def rTRN_PROJ : Nat := 0xA18
def rTRN_SCALE_BASE : Nat := 0xA20
def rTRN_SCALE_STAT : Nat := 0xA28
def rTRN_XCHK_BASE : Nat := 0xA30
def rTRN_XCHK_CTRL : Nat := 0xA38
def rTRN_XCHK_TOL : Nat := 0xA3C
def rTRN_LSTAT : Nat := 0xA40
def rLANE_CTRL : Nat := 0xB00
def rLANE_VIN : Nat := 0xB04
def rLANE_VDEF : Nat := 0xB08
def rLANE_FREE : Nat := 0xB10
def rLANE_SEL : Nat := 0xB18
def rLANE_INFO : Nat := 0xB20
def rLANE_ADV_SEL : Nat := 0xB28
def rLANE_ADV : Nat := 0xB30
def rLANE_SWLAST : Nat := 0xB38
def rKET_CTRL : Nat := 0xC00
def rPWR_STATE : Nat := 0xD00
def rPWR_STATUS : Nat := 0xD04
def rPWR_ERR : Nat := 0xD08
def rPWR_VWARN : Nat := 0xD10
def rPWR_ENTRY : Nat := 0xD18
def rPWR_LAST : Nat := 0xD20
def rPWR_REFUSER : Nat := 0xD28
def rPWR_IDLE_CTRL : Nat := 0xD30
def rPWR_ENTRY_CTRL : Nat := 0xD34
def rPWR_STEEP_BASE : Nat := 0xD38
def rPWR_STEEP_CTRL : Nat := 0xD40
def rPWR_WAKE : Nat := 0xD48
def rDBG_CNT_SEL : Nat := 0xE00
def rDBG_CNT : Nat := 0xE08
def rDBG_LATCH_BASE : Nat := 0xE10
def rDBG_TRACE_CTRL : Nat := 0xE20
def rDBG_TRACE_STAT : Nat := 0xE28
def rDBG_PCS_CTRL : Nat := 0xE30
def rDBG_HANG_CTRL : Nat := 0xE40
def rDBG_HANG_STAT : Nat := 0xE44
def rDBG_HANG_SEL : Nat := 0xE48
def rDBG_HANG_DATA : Nat := 0xE50
def rDBG_CAP_STAT : Nat := 0xE58
def rFLT_CTRL : Nat := 0xF00
def rFLT_HOLD : Nat := 0xF04
def rFLT_LEAD : Nat := 0xF08
def rFLT_ROOT : Nat := 0xF10
def rFLT_ROOTREC : Nat := 0xF18
def rFLT_SEL : Nat := 0xF20
def rFLT_DATA : Nat := 0xF28
def rFLT_STAT : Nat := 0xF30

/-- Window offset of page offset `o` of tenant context `tc` (R400). -/
def page (tc o : Nat) : Nat := 0x100000 + tc * 0x1000 + o

/-! ## Offsets of a tenant page (R410) -/

def rCP_CRING_BASE (tc : Nat) : Nat := page tc 0x0
def rCP_CRING_TAIL (tc : Nat) : Nat := page tc 0x8
def rCP_CRING_HEAD (tc : Nat) : Nat := page tc 0xC
def rCP_SRING_BASE (tc : Nat) : Nat := page tc 0x10
def rCP_SRING_TAIL (tc : Nat) : Nat := page tc 0x18
def rCP_SRING_HEAD (tc : Nat) : Nat := page tc 0x1C
def rCP_RING_CTRL (tc : Nat) : Nat := page tc 0x20
def rCP_RING_STAT (tc : Nat) : Nat := page tc 0x24
def rCP_TC_STATE (tc : Nat) : Nat := page tc 0x30
def rRQT_DL_TCNT (tc : Nat) : Nat := page tc 0x40
def rRQT_DL_TIRQ (tc : Nat) : Nat := page tc 0x48
def rBRW_TSTREAM (tc : Nat) : Nat := page tc 0x60
def rBRW_TCOUNT (tc : Nat) : Nat := page tc 0x64
def rIDX_TDOMAIN (tc : Nat) : Nat := page tc 0x80
def rTRN_RO_BASE (tc : Nat) : Nat := page tc 0xA0
def rTRN_WIN_BASE (tc : Nat) : Nat := page tc 0xA8
def rTRN_TSTATE (tc : Nat) : Nat := page tc 0xB0
def rTRN_TWIN (tc : Nat) : Nat := page tc 0xB4
def rTRN_TSTAT (tc : Nat) : Nat := page tc 0xB8
def rTRN_TIRQ (tc : Nat) : Nat := page tc 0xC0
def rLANE_TLANES (tc : Nat) : Nat := page tc 0x180
def rLANE_TMAP (tc : Nat) : Nat := page tc 0x188
def rLANE_TSLOW (tc : Nat) : Nat := page tc 0x190
def rDBG_TLATCH (tc : Nat) : Nat := page tc 0x1C0
def rDBG_TWATCH (tc : Nat) : Nat := page tc 0x1C8

/-- Registers of the privileged window (R407, R409), part 1. -/
def privRegs1 : List RegInfo := [
  { off := 0x0, wide := false, rw := 0x0, rwp := 0x0, w1c := 0x0, rc := 0x0, wo := 0x0, reset := 0x7A090402 },
  { off := 0x8, wide := true, rw := 0x0, rwp := 0x0, w1c := 0x0, rc := 0x0, wo := 0x0, reset := 0x8000400080408240 },
  { off := 0x10, wide := true, rw := 0x0, rwp := 0x0, w1c := 0x0, rc := 0x0, wo := 0x0, reset := 0x8004008020010040 },
  { off := 0x18, wide := true, rw := 0x0, rwp := 0x0, w1c := 0x0, rc := 0x0, wo := 0x0, reset := 0x8000040000200000 },
  { off := 0x20, wide := true, rw := 0x0, rwp := 0x0, w1c := 0x0, rc := 0x0, wo := 0x0, reset := 0x1480081110 },
  { off := 0x100, wide := false, rw := 0xF1, rwp := 0x0, w1c := 0x0, rc := 0x0, wo := 0x0, reset := 0x20 },
  { off := 0x108, wide := true, rw := 0x0, rwp := 0x0, w1c := 0x0, rc := 0x0, wo := 0x0, reset := 0x0 },
  { off := 0x110, wide := false, rw := 0x0, rwp := 0x0, w1c := 0x0, rc := 0x0, wo := 0x0, reset := 0x3E80000 },
  { off := 0x114, wide := false, rw := 0x0, rwp := 0x0, w1c := 0x0, rc := 0x0, wo := 0x0, reset := 0x0 },
  { off := 0x118, wide := false, rw := 0x0, rwp := 0x0, w1c := 0x0, rc := 0x0, wo := 0x0, reset := 0x0 },
  { off := 0x120, wide := true, rw := 0x0, rwp := 0x0, w1c := 0x0, rc := 0x0, wo := 0x0, reset := 0x0 },
  { off := 0x130, wide := false, rw := 0x0, rwp := 0x0, w1c := 0x0, rc := 0xFFFFFFFF, wo := 0x0, reset := 0x0 },
  { off := 0x138, wide := true, rw := 0x0, rwp := 0x0, w1c := 0x0, rc := 0xFFFFFFFF00000000, wo := 0x0, reset := 0x0 },
  { off := 0x140, wide := true, rw := 0x0, rwp := 0x0, w1c := 0x0, rc := 0x0, wo := 0x0, reset := 0x0 },
  { off := 0x150, wide := false, rw := 0x0, rwp := 0xFFFFFFFF, w1c := 0x0, rc := 0x0, wo := 0x0, reset := 0x0 },
  { off := 0x158, wide := true, rw := 0x0, rwp := 0xFFFFFFFF80000003, w1c := 0x0, rc := 0x0, wo := 0x0, reset := 0x3 },
  { off := 0x160, wide := false, rw := 0x0, rwp := 0xFF, w1c := 0x0, rc := 0x0, wo := 0x0, reset := 0x0 },
  { off := 0x168, wide := true, rw := 0x0, rwp := 0x0, w1c := 0x0, rc := 0x0, wo := 0x0, reset := 0x0 },
  { off := 0x170, wide := false, rw := 0x0, rwp := 0x0, w1c := 0x0, rc := 0x0, wo := 0x0, reset := 0x0 },
  { off := 0x178, wide := true, rw := 0x0, rwp := 0x0, w1c := 0x0, rc := 0x0, wo := 0x0, reset := 0x0 },
  { off := 0x180, wide := true, rw := 0x0, rwp := 0x0, w1c := 0x0, rc := 0xFFFFFFFFFFFFFFFF, wo := 0x0, reset := 0x0 },
  { off := 0x188, wide := true, rw := 0x0, rwp := 0x0, w1c := 0x0, rc := 0xFFFFFFFFFFFFFFFF, wo := 0x0, reset := 0x0 },
  { off := 0x400, wide := true, rw := 0xFFFFFFFFFFFFF000, rwp := 0x0, w1c := 0x0, rc := 0x0, wo := 0x0, reset := 0x0 },
  { off := 0x408, wide := false, rw := 0x8000001F, rwp := 0x0, w1c := 0x0, rc := 0x0, wo := 0x0, reset := 0xA } ]

/-- Registers of the privileged window (R407, R409), part 2. -/
def privRegs2 : List RegInfo := [
  { off := 0x40C, wide := false, rw := 0x0, rwp := 0x0, w1c := 0x0, rc := 0x0, wo := 0x0, reset := 0x0 },
  { off := 0x410, wide := false, rw := 0x0, rwp := 0x0, w1c := 0x0, rc := 0x0, wo := 0x0, reset := 0x0 },
  { off := 0x418, wide := true, rw := 0x0, rwp := 0x0, w1c := 0x0, rc := 0x0, wo := 0x0, reset := 0x0 },
  { off := 0x480, wide := false, rw := 0x0, rwp := 0x800FFFFF, w1c := 0x0, rc := 0x0, wo := 0x0, reset := 0x80000000 },
  { off := 0x484, wide := false, rw := 0x0, rwp := 0x0, w1c := 0x0, rc := 0xFFFFFFFF, wo := 0x0, reset := 0x0 },
  { off := 0x488, wide := false, rw := 0x0, rwp := 0x0, w1c := 0x0, rc := 0xFFFFFFFF, wo := 0x0, reset := 0x0 },
  { off := 0x48C, wide := false, rw := 0x0, rwp := 0x0, w1c := 0x0, rc := 0xFFFFFFFF, wo := 0x0, reset := 0x0 },
  { off := 0x490, wide := false, rw := 0x0, rwp := 0x0, w1c := 0x0, rc := 0xFFFFFFFF, wo := 0x0, reset := 0x0 },
  { off := 0x494, wide := false, rw := 0x0, rwp := 0x0, w1c := 0x0, rc := 0xFFFFFFFF, wo := 0x0, reset := 0x0 },
  { off := 0x500, wide := false, rw := 0x0, rwp := 0xFFFF0001, w1c := 0x0, rc := 0x0, wo := 0x0, reset := 0x80000 },
  { off := 0x508, wide := true, rw := 0x0, rwp := 0xFFFFFFFFFFFFFFFF, w1c := 0x0, rc := 0x0, wo := 0x0, reset := 0xFFFFFFFFFFFFFFFF },
  { off := 0x510, wide := true, rw := 0x0, rwp := 0x0, w1c := 0x0, rc := 0x0, wo := 0x0, reset := 0xFFFF000000000000 },
  { off := 0x518, wide := false, rw := 0x0, rwp := 0x0, w1c := 0x0, rc := 0x0, wo := 0x0, reset := 0x1000 },
  { off := 0x51C, wide := false, rw := 0x0, rwp := 0x0, w1c := 0x0, rc := 0xFFFFFFFF, wo := 0x0, reset := 0x0 },
  { off := 0x520, wide := false, rw := 0x0, rwp := 0x0, w1c := 0x0, rc := 0xFFFFFFFF, wo := 0x0, reset := 0x0 },
  { off := 0x600, wide := true, rw := 0x0, rwp := 0x0, w1c := 0x0, rc := 0xFFFFFFFFFFFF0000, wo := 0x0, reset := 0x0 },
  { off := 0x608, wide := true, rw := 0x0, rwp := 0x0, w1c := 0x0, rc := 0xFFFFFFFFFFFFFFFF, wo := 0x0, reset := 0x0 },
  { off := 0x610, wide := true, rw := 0x0, rwp := 0x0, w1c := 0x0, rc := 0xFFFFFFFFFFFFFFFF, wo := 0x0, reset := 0x0 },
  { off := 0x618, wide := false, rw := 0x0, rwp := 0x0, w1c := 0x0, rc := 0xFFFFFFFF, wo := 0x0, reset := 0x0 },
  { off := 0x640, wide := true, rw := 0x0, rwp := 0xC0000000FFFFFFFF, w1c := 0x0, rc := 0x0, wo := 0x0, reset := 0x11111111 },
  { off := 0x648, wide := true, rw := 0x0, rwp := 0xFFFFFFFFFFFFF000, w1c := 0x0, rc := 0x0, wo := 0x0, reset := 0x0 },
  { off := 0x650, wide := true, rw := 0x0, rwp := 0x0, w1c := 0x0, rc := 0xFFFFFFFFFFFFFFFF, wo := 0x0, reset := 0x0 },
  { off := 0x658, wide := true, rw := 0x0, rwp := 0x0, w1c := 0x0, rc := 0xFFFFFFFFFFFF0000, wo := 0x0, reset := 0x0 },
  { off := 0x700, wide := true, rw := 0x0, rwp := 0xFFFFFFFFFFFE0001, w1c := 0x0, rc := 0x0, wo := 0x0, reset := 0x0 } ]

/-- Registers of the privileged window (R407, R409), part 3. -/
def privRegs3 : List RegInfo := [
  { off := 0x708, wide := false, rw := 0x0, rwp := 0x0, w1c := 0x0, rc := 0x0, wo := 0x0, reset := 0x0 },
  { off := 0x70C, wide := false, rw := 0x0, rwp := 0x0, w1c := 0x0, rc := 0xFFFFFFFF, wo := 0x0, reset := 0x0 },
  { off := 0x710, wide := false, rw := 0x0, rwp := 0x0, w1c := 0x0, rc := 0x0, wo := 0x0, reset := 0x0 },
  { off := 0x800, wide := false, rw := 0x0, rwp := 0x8000001F, w1c := 0x0, rc := 0x0, wo := 0x0, reset := 0x10 },
  { off := 0x808, wide := true, rw := 0x0, rwp := 0xFFFFFFFFFFFFF000, w1c := 0x0, rc := 0x0, wo := 0x0, reset := 0x0 },
  { off := 0x810, wide := false, rw := 0x0, rwp := 0xFFFFFF, w1c := 0x0, rc := 0x0, wo := 0x0, reset := 0x0 },
  { off := 0x818, wide := true, rw := 0x0, rwp := 0xFFFFFFFFFFFFF000, w1c := 0x0, rc := 0x0, wo := 0x0, reset := 0x0 },
  { off := 0x820, wide := true, rw := 0x0, rwp := 0xFFFFFFFFFFFFF000, w1c := 0x0, rc := 0x0, wo := 0x0, reset := 0x0 },
  { off := 0x828, wide := false, rw := 0x0, rwp := 0x1FFFFF, w1c := 0x0, rc := 0x0, wo := 0x0, reset := 0x0 },
  { off := 0x830, wide := true, rw := 0x0, rwp := 0xFFFFFF00FFFFFF, w1c := 0x0, rc := 0x0, wo := 0x0, reset := 0x0 },
  { off := 0x838, wide := true, rw := 0x0, rwp := 0xFFFFFFFFFFFFF01F, w1c := 0x0, rc := 0x0, wo := 0x0, reset := 0xC },
  { off := 0x840, wide := false, rw := 0x0, rwp := 0x0, w1c := 0x0, rc := 0x0, wo := 0x0, reset := 0x0 },
  { off := 0x844, wide := false, rw := 0xFFFFFFFF, rwp := 0x0, w1c := 0x0, rc := 0x0, wo := 0x0, reset := 0x0 },
  { off := 0x848, wide := true, rw := 0x0, rwp := 0x0, w1c := 0x0, rc := 0x0, wo := 0xFFFFFFFFFFFFFFFF, reset := 0x0 },
  { off := 0x850, wide := false, rw := 0x0, rwp := 0xFFFFFF3F, w1c := 0x0, rc := 0x0, wo := 0x0, reset := 0x400020 },
  { off := 0x858, wide := true, rw := 0x0, rwp := 0x0, w1c := 0x0, rc := 0x0, wo := 0x0, reset := 0x0 },
  { off := 0x860, wide := true, rw := 0x0, rwp := 0x0, w1c := 0x0, rc := 0xFFFFFFFFFFFFFFFF, wo := 0x0, reset := 0x0 },
  { off := 0x868, wide := true, rw := 0x0, rwp := 0x0, w1c := 0x0, rc := 0xFFFFFFFFFFFFFFFF, wo := 0x0, reset := 0x0 },
  { off := 0x870, wide := true, rw := 0x0, rwp := 0x0, w1c := 0x0, rc := 0xFFFFFFFFFFFFFFFF, wo := 0x0, reset := 0x0 },
  { off := 0x878, wide := true, rw := 0x0, rwp := 0x0, w1c := 0x0, rc := 0xFFFFFFFFFFFFFFFF, wo := 0x0, reset := 0x0 },
  { off := 0x900, wide := false, rw := 0x0, rwp := 0x0, w1c := 0x0, rc := 0x0, wo := 0x0, reset := 0x0 },
  { off := 0x908, wide := true, rw := 0x0, rwp := 0xFFFFFFFFFFFFFFFF, w1c := 0x0, rc := 0x0, wo := 0x0, reset := 0xFFFFFFFFFFFFFFFF },
  { off := 0x910, wide := false, rw := 0x0, rwp := 0x0, w1c := 0x0, rc := 0x0, wo := 0x0, reset := 0xFFFF },
  { off := 0x918, wide := true, rw := 0x0, rwp := 0xFFFFFFFFFFFC0001, w1c := 0x0, rc := 0x0, wo := 0x0, reset := 0x0 } ]

/-- Registers of the privileged window (R407, R409), part 4. -/
def privRegs4 : List RegInfo := [
  { off := 0x920, wide := false, rw := 0x0, rwp := 0xFFF, w1c := 0x0, rc := 0x0, wo := 0x0, reset := 0x0 },
  { off := 0x928, wide := true, rw := 0x0, rwp := 0x0, w1c := 0x0, rc := 0x0, wo := 0x0, reset := 0x0 },
  { off := 0x930, wide := true, rw := 0x0, rwp := 0x0, w1c := 0x0, rc := 0xFFFFFFFFFFFFFFFF, wo := 0x0, reset := 0x0 },
  { off := 0x938, wide := false, rw := 0x0, rwp := 0x0, w1c := 0x0, rc := 0x0, wo := 0x0, reset := 0x1000 },
  { off := 0xA00, wide := false, rw := 0x0, rwp := 0x0, w1c := 0x0, rc := 0x0, wo := 0x0, reset := 0xFF00 },
  { off := 0xA04, wide := false, rw := 0x0, rwp := 0x0, w1c := 0x0, rc := 0x0, wo := 0x0, reset := 0x0 },
  { off := 0xA08, wide := false, rw := 0x0, rwp := 0xFF, w1c := 0x0, rc := 0x0, wo := 0x0, reset := 0xE0 },
  { off := 0xA10, wide := true, rw := 0x0, rwp := 0x0, w1c := 0x0, rc := 0xFFFFFFFFFFFFFFFF, wo := 0x0, reset := 0x0 },
  { off := 0xA18, wide := true, rw := 0x0, rwp := 0x0, w1c := 0x0, rc := 0x0, wo := 0x0, reset := 0x0 },
  { off := 0xA20, wide := true, rw := 0x0, rwp := 0xFFFFFFFFFFFF8001, w1c := 0x0, rc := 0x0, wo := 0x0, reset := 0x0 },
  { off := 0xA28, wide := false, rw := 0x0, rwp := 0x0, w1c := 0x0, rc := 0xFFFF0000, wo := 0x0, reset := 0x10 },
  { off := 0xA30, wide := true, rw := 0x0, rwp := 0xFFFFFFFFFFFFFC01, w1c := 0x0, rc := 0x0, wo := 0x0, reset := 0x0 },
  { off := 0xA38, wide := false, rw := 0x0, rwp := 0x1FFF007F, w1c := 0x0, rc := 0x0, wo := 0x0, reset := 0x10000000 },
  { off := 0xA3C, wide := false, rw := 0x0, rwp := 0xFFFFFFFF, w1c := 0x0, rc := 0x0, wo := 0x0, reset := 0x3C23D70A },
  { off := 0xA40, wide := true, rw := 0x0, rwp := 0x0, w1c := 0x0, rc := 0xFFFFFFFFFFFFFFFF, wo := 0x0, reset := 0x0 },
  { off := 0xB00, wide := false, rw := 0x0, rwp := 0x8000001F, w1c := 0x0, rc := 0x0, wo := 0x0, reset := 0x0 },
  { off := 0xB04, wide := false, rw := 0x0, rwp := 0xFFFFFFFF, w1c := 0x0, rc := 0x0, wo := 0x0, reset := 0x0 },
  { off := 0xB08, wide := false, rw := 0x0, rwp := 0xFFFFFFFF, w1c := 0x0, rc := 0x0, wo := 0x0, reset := 0x10000 },
  { off := 0xB10, wide := true, rw := 0x0, rwp := 0x0, w1c := 0x0, rc := 0x0, wo := 0x0, reset := 0xFFFFFFFFFFFFFFFF },
  { off := 0xB18, wide := false, rw := 0x0, rwp := 0x3F, w1c := 0x0, rc := 0x0, wo := 0x0, reset := 0x0 },
  { off := 0xB20, wide := true, rw := 0x0, rwp := 0x0, w1c := 0x0, rc := 0x0, wo := 0x0, reset := 0x0 },
  { off := 0xB28, wide := false, rw := 0x0, rwp := 0x7FFF, w1c := 0x0, rc := 0x0, wo := 0x0, reset := 0x0 },
  { off := 0xB30, wide := true, rw := 0x0, rwp := 0x0, w1c := 0x0, rc := 0x0, wo := 0x0, reset := 0x0 },
  { off := 0xB38, wide := true, rw := 0x0, rwp := 0x0, w1c := 0x0, rc := 0x0, wo := 0x0, reset := 0x0 } ]

/-- Registers of the privileged window (R407, R409), part 5. -/
def privRegs5 : List RegInfo := [
  { off := 0xC00, wide := false, rw := 0x0, rwp := 0xFF, w1c := 0x0, rc := 0x0, wo := 0x0, reset := 0x1 },
  { off := 0xD00, wide := false, rw := 0x0, rwp := 0x0, w1c := 0x0, rc := 0x0, wo := 0x0, reset := 0x2492 },
  { off := 0xD04, wide := false, rw := 0x0, rwp := 0x0, w1c := 0x70000000, rc := 0x0, wo := 0x0, reset := 0x0 },
  { off := 0xD08, wide := false, rw := 0x0, rwp := 0x0, w1c := 0x0, rc := 0xFFFF, wo := 0x0, reset := 0x0 },
  { off := 0xD10, wide := true, rw := 0x0, rwp := 0x0, w1c := 0x0, rc := 0xFFFFFFFFFFFFFFFF, wo := 0x0, reset := 0x0 },
  { off := 0xD18, wide := true, rw := 0x0, rwp := 0x0, w1c := 0x0, rc := 0xFFFFFFFFFFFF0000, wo := 0x0, reset := 0x0 },
  { off := 0xD20, wide := false, rw := 0x0, rwp := 0x0, w1c := 0x0, rc := 0x0, wo := 0x0, reset := 0x18000000 },
  { off := 0xD28, wide := true, rw := 0x0, rwp := 0x0, w1c := 0x0, rc := 0x0, wo := 0x0, reset := 0x0 },
  { off := 0xD30, wide := false, rw := 0x0, rwp := 0xFFFFFFFF, w1c := 0x0, rc := 0x0, wo := 0x0, reset := 0x10104020 },
  { off := 0xD34, wide := false, rw := 0x0, rwp := 0xFFFF, w1c := 0x0, rc := 0x0, wo := 0x0, reset := 0x64 },
  { off := 0xD38, wide := true, rw := 0x0, rwp := 0xFFFFFFFFFFFFF000, w1c := 0x0, rc := 0x0, wo := 0x0, reset := 0x0 },
  { off := 0xD40, wide := false, rw := 0x0, rwp := 0x3F, w1c := 0x0, rc := 0x0, wo := 0x80000000, reset := 0x0 },
  { off := 0xD48, wide := false, rw := 0x0, rwp := 0x0, w1c := 0x0, rc := 0x0, wo := 0x1, reset := 0x0 },
  { off := 0xE00, wide := false, rw := 0x0, rwp := 0xFFFFFF1F, w1c := 0x0, rc := 0x0, wo := 0x0, reset := 0x0 },
  { off := 0xE08, wide := true, rw := 0x0, rwp := 0x0, w1c := 0x0, rc := 0x0, wo := 0x0, reset := 0x0 },
  { off := 0xE10, wide := true, rw := 0x0, rwp := 0xFFFFFFFFFFFFF03F, w1c := 0x0, rc := 0x0, wo := 0x0, reset := 0x8 },
  { off := 0xE20, wide := false, rw := 0x0, rwp := 0x80000007, w1c := 0x0, rc := 0x0, wo := 0x0, reset := 0x0 },
  { off := 0xE28, wide := true, rw := 0x0, rwp := 0x0, w1c := 0x0, rc := 0xFFFFFFFF00000000, wo := 0x0, reset := 0x0 },
  { off := 0xE30, wide := false, rw := 0x0, rwp := 0x801FFFFF, w1c := 0x0, rc := 0x0, wo := 0x0, reset := 0x10FFFF },
  { off := 0xE40, wide := false, rw := 0x0, rwp := 0xFFFF, w1c := 0x0, rc := 0x0, wo := 0x80000000, reset := 0x3E8 },
  { off := 0xE44, wide := false, rw := 0x0, rwp := 0x0, w1c := 0xF0000000, rc := 0x0, wo := 0x0, reset := 0x0 },
  { off := 0xE48, wide := false, rw := 0x0, rwp := 0x7FFF, w1c := 0x0, rc := 0x0, wo := 0x0, reset := 0x0 },
  { off := 0xE50, wide := true, rw := 0x0, rwp := 0x0, w1c := 0x0, rc := 0x0, wo := 0x0, reset := 0x0 },
  { off := 0xE58, wide := true, rw := 0x0, rwp := 0x0, w1c := 0x0, rc := 0x0, wo := 0x0, reset := 0x0 } ]

/-- Registers of the privileged window (R407, R409), part 6. -/
def privRegs6 : List RegInfo := [
  { off := 0xF00, wide := false, rw := 0x0, rwp := 0x9F07FFFF, w1c := 0x0, rc := 0x0, wo := 0x0, reset := 0x10064 },
  { off := 0xF04, wide := false, rw := 0x0, rwp := 0x0, w1c := 0x18, rc := 0x0, wo := 0x0, reset := 0x3 },
  { off := 0xF08, wide := true, rw := 0x0, rwp := 0x0, w1c := 0x0, rc := 0x0, wo := 0x0, reset := 0x0 },
  { off := 0xF10, wide := true, rw := 0x0, rwp := 0x0, w1c := 0x0, rc := 0x0, wo := 0x0, reset := 0x0 },
  { off := 0xF18, wide := false, rw := 0x0, rwp := 0x0, w1c := 0x80000000, rc := 0x0, wo := 0x0, reset := 0x0 },
  { off := 0xF20, wide := false, rw := 0x0, rwp := 0x3FFF, w1c := 0x0, rc := 0x0, wo := 0x0, reset := 0x0 },
  { off := 0xF28, wide := true, rw := 0x0, rwp := 0x0, w1c := 0x0, rc := 0x0, wo := 0x0, reset := 0x0 },
  { off := 0xF30, wide := true, rw := 0x0, rwp := 0x0, w1c := 0x0, rc := 0xFFFFFFFFFFFFFFFF, wo := 0x0, reset := 0x0 } ]

/-- Registers of the privileged window (R407, R409). -/
def privRegs : List RegInfo := privRegs1 ++ privRegs2 ++ privRegs3 ++ privRegs4 ++ privRegs5 ++ privRegs6

/-- Registers of a tenant page (R410), part 1. -/
def pageRegs1 : List RegInfo := [
  { off := 0x0, wide := true, rw := 0x0, rwp := 0xFFFFFFFFFFFFF01F, w1c := 0x0, rc := 0x0, wo := 0x0, reset := 0x6 },
  { off := 0x8, wide := false, rw := 0xFFFFFFFF, rwp := 0x0, w1c := 0x0, rc := 0x0, wo := 0x0, reset := 0x0 },
  { off := 0xC, wide := false, rw := 0x0, rwp := 0x0, w1c := 0x0, rc := 0x0, wo := 0x0, reset := 0x0 },
  { off := 0x10, wide := true, rw := 0x0, rwp := 0xFFFFFFFFFFFFF01F, w1c := 0x0, rc := 0x0, wo := 0x0, reset := 0x6 },
  { off := 0x18, wide := false, rw := 0x0, rwp := 0x0, w1c := 0x0, rc := 0x0, wo := 0x0, reset := 0x0 },
  { off := 0x1C, wide := false, rw := 0xFFFFFFFF, rwp := 0x0, w1c := 0x0, rc := 0x0, wo := 0x0, reset := 0x0 },
  { off := 0x20, wide := false, rw := 0x0, rwp := 0x3, w1c := 0x0, rc := 0x0, wo := 0x0, reset := 0x0 },
  { off := 0x24, wide := false, rw := 0x0, rwp := 0x0, w1c := 0xF0, rc := 0x0, wo := 0x0, reset := 0x0 },
  { off := 0x30, wide := false, rw := 0x0, rwp := 0x0, w1c := 0x0, rc := 0x0, wo := 0x0, reset := 0x0 },
  { off := 0x40, wide := true, rw := 0x0, rwp := 0x0, w1c := 0x0, rc := 0xFFFFFFFFFFFFFFFF, wo := 0x0, reset := 0x0 },
  { off := 0x48, wide := false, rw := 0xE7, rwp := 0x0, w1c := 0x0, rc := 0x0, wo := 0x0, reset := 0x0 },
  { off := 0x60, wide := false, rw := 0x0, rwp := 0x0, w1c := 0x0, rc := 0x0, wo := 0x0, reset := 0x0 },
  { off := 0x64, wide := false, rw := 0x0, rwp := 0x0, w1c := 0x0, rc := 0x0, wo := 0x0, reset := 0x0 },
  { off := 0x80, wide := false, rw := 0x0, rwp := 0xFFFFFFFF, w1c := 0x0, rc := 0x0, wo := 0x0, reset := 0x0 },
  { off := 0xA0, wide := true, rw := 0x0, rwp := 0xFFFFFFFFFFFFF01F, w1c := 0x0, rc := 0x0, wo := 0x0, reset := 0xA },
  { off := 0xA8, wide := true, rw := 0x0, rwp := 0xFFFFFFFFFFFFF01F, w1c := 0x0, rc := 0x0, wo := 0x0, reset := 0x6 },
  { off := 0xB0, wide := false, rw := 0x0, rwp := 0x0, w1c := 0x0, rc := 0x0, wo := 0x0, reset := 0x0 },
  { off := 0xB4, wide := false, rw := 0x0, rwp := 0x0, w1c := 0x0, rc := 0x0, wo := 0x0, reset := 0x0 },
  { off := 0xB8, wide := true, rw := 0x0, rwp := 0x0, w1c := 0x0, rc := 0xFFFFFFFFFFFFFFFF, wo := 0x0, reset := 0x0 },
  { off := 0xC0, wide := false, rw := 0xE7, rwp := 0x0, w1c := 0x0, rc := 0x0, wo := 0x0, reset := 0x0 },
  { off := 0x180, wide := true, rw := 0x0, rwp := 0x0, w1c := 0x0, rc := 0x0, wo := 0x0, reset := 0x0 },
  { off := 0x188, wide := true, rw := 0x0, rwp := 0xFFFFFFFFFFFFF01F, w1c := 0x0, rc := 0x0, wo := 0x0, reset := 0x8 },
  { off := 0x190, wide := false, rw := 0x0, rwp := 0x0, w1c := 0x0, rc := 0xFFFF, wo := 0x0, reset := 0x0 },
  { off := 0x1C0, wide := true, rw := 0x0, rwp := 0xFFFFFFFFFFFFF01F, w1c := 0x0, rc := 0x0, wo := 0x0, reset := 0x6 } ]

/-- Registers of a tenant page (R410), part 2. -/
def pageRegs2 : List RegInfo := [
  { off := 0x1C8, wide := false, rw := 0x0, rwp := 0xC0000000, w1c := 0x0, rc := 0x0, wo := 0x0, reset := 0x0 } ]

/-- Registers of a tenant page (R410). -/
def pageRegs : List RegInfo := pageRegs1 ++ pageRegs2

/-- CP_PLACEq (R408): FIELD resets to the quadrant number. -/
def placeRegs : List RegInfo :=
  (List.range 4).map fun q =>
    { off := 0x40 + 4 * q, wide := false, rw := 0, rwp := 0xFFF, w1c := 0, rc := 0, wo := 0, reset := q }

def rCP_PLACE (q : Nat) : Nat := 0x40 + 4 * q

/-- Base offset of a vector's registers (R302). -/
def vecBase : VecId → Nat
  | .pv v => 0x200 + 16 * v.toNat
  | .tv tc v => page tc.toNat (0x100 + 16 * v.toNat)

def vecCtrl (v : VecId) : Nat := vecBase v + 12

/-- The registers of one vector whose base offset is `b` (R302). -/
def vecRegs (b : Nat) : List RegInfo :=
  [ { off := b, wide := true, rw := 0, rwp := 0xFFFFFFFFFFFFFFFC, w1c := 0, rc := 0, wo := 0, reset := 0 },
    { off := b + 8, wide := false, rw := 0, rwp := 0xFFFFFFFF, w1c := 0, rc := 0, wo := 0, reset := 0 },
    { off := b + 12, wide := false, rw := 1, rwp := 0x80000000, w1c := 0, rc := 0, wo := 0, reset := 0 } ]

/-- The register that window offset `o` is the first byte of, if one starts there. -/
def infoAt (o : Nat) : Option RegInfo :=
  if o < 0x1000 then
    if 0x200 ≤ o ∧ o < 0x400 then (vecRegs (o / 16 * 16)).find? (fun r => r.off == o)
    else if 0x40 ≤ o ∧ o < 0x50 then placeRegs.find? (fun r => r.off == o)
    else privRegs.find? (fun r => r.off == o)
  else if 0x100000 ≤ o ∧ o < 0x200000 then
    let p := o % 0x1000
    let r := if 0x100 ≤ p ∧ p < 0x180 then (vecRegs (p / 16 * 16)).find? (fun r => r.off == p)
             else pageRegs.find? (fun r => r.off == p)
    r.map fun r =>
      { r with off := o, reset := if p = 0x80 then (o - 0x100000) / 0x1000 else r.reset }
  else none

/-- Reset value of the register at `o` (R409, R410). -/
def resetOf (o : Nat) : U64 :=
  match infoAt o with
  | some r => BitVec.ofNat 64 r.reset
  | none => 0

end Sys2Proof.Machine
end

