-- ==== Sys2Proof/Machine/Ops.lean ====
section
/-! DEFINITION. Named operations over the engine: tier-1 memory, registers, counters, vectors, the
status rings, trace, fault reports, the manifest, memory and relay ports. -/

namespace Sys2Proof.Machine

/-- A command's effect as an update of the engine: the queue is untouched. -/
def onAny (f : Engine → Engine) (s : State) : Host.Outcome State Fault Refusal :=
  .next { s with eng := f s.eng }

/-- The engine is held in reset (R338, R344, R413, R16). -/
def inReset (e : Engine) : Bool :=
  e.pwr.holdRstN || e.pwr.holdBor || e.pwr.holdTest || e.pwr.placementBad

/-- The engine's ports are in service: it is not in reset, nor in SLEEP, DEEP or OFF (R345, R359). -/
def inService (e : Engine) : Bool := !inReset e && decide (e.pwr.eng < 3)

/-- A command that reaches the engine only while its ports are in service; elsewhere it is lost (DEDUCED, log entry 15). -/
def whenUp (f : Engine → Engine) (e : Engine) : Engine := if inService e then f e else e

def onEng (f : Engine → Engine) (s : State) : Host.Outcome State Fault Refusal := onAny (whenUp f) s

/-! ## Tier-1 memory (R319; unlisted bytes read 0, DESIGN CHOICE, log entry 1) -/

def memGet : List Host.Cell → Nat → Byte
  | [], _ => 0
  | (a, b) :: t, n => if a = n then b else memGet t n

def memSet : List Host.Cell → Nat → Byte → List Host.Cell
  | [], n, b => if b = 0 then [] else [(n, b)]
  | (a, x) :: t, n, b =>
    if n < a then if b = 0 then (a, x) :: t else (n, b) :: (a, x) :: t
    else if n = a then if b = 0 then t else (n, b) :: t
    else (a, x) :: memSet t n b

/-- The canonical form: addresses rising, no entry equal to the byte an unlisted address reads as. -/
def memWf : List Host.Cell → Bool
  | [] => true
  | (a, x) :: t => x != 0 && t.all (fun c => decide (a < c.1)) && memWf t

def memWrite (m : List Host.Cell) : Nat → List Byte → List Host.Cell
  | _, [] => m
  | a, b :: bs => memSet (memWrite m (a + 1) bs) a b

def memRead (m : List Host.Cell) (a : Nat) : Nat → List Byte
  | 0 => []
  | n + 1 => memGet m a :: memRead m (a + 1) n

def rd (e : Engine) (a n : Nat) : List Byte := memRead e.mem a n
def rdN (e : Engine) (a n : Nat) : Nat := ofLe (rd e a n)
def wr (a : Nat) (bs : List Byte) (e : Engine) : Engine := { e with mem := memWrite e.mem a bs }
def wrN (a n v : Nat) (e : Engine) : Engine := wr a (le n v) e

/-- Whether a 64-byte line of `[a, a + n)` last answered with an uncorrectable error (R319). -/
def badRange (e : Engine) (a n : Nat) : Bool := e.bad.any (fun l => decide (0 < n ∧ l + 64 > a ∧ l < a + n))

/-! ## Registers -/

def reg (e : Engine) (off : Nat) : U64 := (tget? e.regs off).getD (resetOf off)

def setReg (off : Nat) (v : U64) (e : Engine) : Engine :=
  { e with regs := if v = resetOf off then tdel e.regs off else tset e.regs off v }

def regN (e : Engine) (off hi lo : Nat) : Nat := bits (reg e off) hi lo
def regB (e : Engine) (off n : Nat) : Bool := bit (reg e off) n

/-- Replace bits `[hi:lo]` of a value. -/
def setField (v : U64) (hi lo x : Nat) : U64 :=
  let m := BitVec.ofNat 64 ((2 ^ (hi - lo + 1) - 1) <<< lo)
  (v &&& ~~~m) ||| (BitVec.ofNat 64 (x <<< lo) &&& m)

def setRegF (off hi lo x : Nat) (e : Engine) : Engine := setReg off (setField (reg e off) hi lo x) e

/-- Add to a count field the spec calls saturating. -/
def bumpSat (off hi lo n : Nat) (e : Engine) : Engine :=
  setRegF off hi lo (min (regN e off hi lo + n) (2 ^ (hi - lo + 1) - 1)) e

/-- Add to a count field whose overflow the spec does not state: past its range it holds a free value
(DESIGN CHOICE, log entry 5). -/
def bumpOpen (off hi lo n : Nat) (e : Engine) : Engine :=
  let x := regN e off hi lo + n
  if x < 2 ^ (hi - lo + 1) then setRegF off hi lo x e
  else { setRegF off hi lo (Config.counterOverflow off lo e.free).toNat e with free := e.free + 1 }

/-- Take a free value (DESIGN CHOICE, log entry 5). -/
def takeFree (e : Engine) : U64 × Engine := (Config.unstated e.free, { e with free := e.free + 1 })

/-- `n` where a field of 32 bits holds it, a free value where it does not (DESIGN CHOICE, log entry 5). -/
def openU32 (n : Nat) (e : Engine) : U32 × Engine :=
  if n < 2 ^ 32 then (BitVec.ofNat 32 n, e) else
    let (v, e) := takeFree e
    (v.setWidth 32, e)

/-! ## Always-on counters (R365) -/

def cntKey (g i : Nat) : Nat := g * 32 + i
def tcntKey (tc i : Nat) : Nat := 0x10000 + tc * 32 + i

def addCnt (k n : Nat) (e : Engine) : Engine :=
  { e with cnt := tset e.cnt k (tget 0 e.cnt k + BitVec.ofNat 64 n) }

def count (g i n : Nat) (e : Engine) : Engine := if n = 0 then e else addCnt (cntKey g i) n e
def tcount (tc i n : Nat) (e : Engine) : Engine := if n = 0 then e else addCnt (tcntKey tc i) n e

/-! ## Tenants -/

def ten (e : Engine) (tc : Nat) : Tenant := tget (Tenant.fresh tc) e.ten tc
def setTen (tc : Nat) (t : Tenant) (e : Engine) : Engine := { e with ten := tset e.ten tc t }
def modTen (tc : Nat) (f : Tenant → Tenant) (e : Engine) : Engine := setTen tc (f (ten e tc)) e
def modRing (tc : Nat) (f : TRing → TRing) (e : Engine) : Engine :=
  modTen tc (fun t => { t with ring := f t.ring }) e
def modLearn (tc : Nat) (f : TLearn → TLearn) (e : Engine) : Engine :=
  modTen tc (fun t => { t with learn := f t.learn }) e

/-- A context in OPEN or CLOSING is open (R283). -/
def isOpen (e : Engine) (tc : Nat) : Bool :=
  match (ten e tc).st with
  | .opened => true
  | .closing => true
  | _ => false

/-- Context numbers that have state of their own, TC0 first. -/
def tenants (e : Engine) : List Nat := 0 :: (tkeys e.ten).filter (· != 0)

/-! ## HADDR (R13) -/

def haddr (level quad tkind tindex bank entry : Nat) (cell : Nat := 0) : HAddr :=
  BitVec.ofNat 64 (level * 2 ^ 61 + quad * 2 ^ 58 + tkind * 2 ^ 42 + tindex * 2 ^ 36 + bank * 2 ^ 28
    + entry * 2 ^ 13 + cell)

def hTile (quad tkind tindex : Nat) : HAddr := haddr 3 quad tkind tindex 0 0
def hQuad (q : Nat) : HAddr := haddr 4 q 0 0 0 0
def hEngine : HAddr := haddr 5 0 0 0 0 0
def hadQuad (h : HAddr) : Nat := bits h 59 58

/-- L6 address of quadrant `q`, with the DIE and FIELD of CP_PLACEq (R13, R408). -/
def hPlace (e : Engine) (q : Nat) : HAddr :=
  BitVec.ofNat 64 (6 * 2 ^ 61 + q * 2 ^ 58 + regN e (rCP_PLACE q) 11 4 * 2 ^ 50
    + regN e (rCP_PLACE q) 3 0 * 2 ^ 46)

/-- TKIND of a tile. -/
def tileKind : Tile → Nat
  | .rqt _ => 1 | .spr _ => 2 | .wlk _ => 3 | .sq _ => 4 | .dp => 5 | .mp => 6 | .mem => 7 | .ixc => 8 | .mac => 9
  | .hpt => 10 | .qms => 11 | .xl _ => 12 | .pf => 13 | .glb _ => 14

def glbIndex : GlbUnit → Nat
  | .cp => 0 | .rp => 1 | .tp => 2 | .kp => 3 | .timeBase => 4

/-- TINDEX of a tile: a microsequencer's number in the engine, a port's quadrant (R17), a link end's neighbour. -/
def tileIndex (t : TileAt) : Nat :=
  let q := t.quad.toNat
  match t.tile with
  | .rqt i => i.toNat
  | .spr i => i.toNat
  | .wlk i => i.toNat
  | .sq i => 4 * q + i.toNat
  | .dp | .mp | .mem => q
  | .xl cw => (q + if cw then 1 else 3) % 4
  | .glb u => glbIndex u
  | .ixc | .mac | .hpt | .qms | .pf => 0

/-- Entries of a tile's SRAM, and of one of its banks (01_organisation.md, table of tiles); (0, 1) for flops only. -/
def tileSram : Tile → Nat × Nat
  | .rqt _ => (4096, 256) | .spr _ => (256, 32) | .ixc => (32768, 1024) | .mac => (24576, 1024) | .hpt => (1024, 64)
  | .qms => (8192, 1024) | _ => (0, 1)

/-- The bank of a tile that holds an entry (R12). -/
def bankOf (t : Tile) (entry : Nat) : Nat := entry / (tileSram t).2

/-- Global units stand in Q0 alone (R18), and an SRAM entry lies within its tile. -/
def tileActive (t : TileAt) : Bool := match t.tile with
  | .glb _ => t.quad == 0
  | _ => true

def hOf (t : TileAt) : HAddr := hTile t.quad.toNat (tileKind t.tile) (tileIndex t)

/-- The root a report carries for a site (R12-R14, R386): the cell of a failing data bit, the entry when ECC locates a check
bit, the register word of flop state (BANK 0xFF) (DEDUCED, log entry 96). -/
def siteRoot : Site → HAddr
  | .sram t n (some c) =>
    haddr 0 t.quad.toNat (tileKind t.tile) (tileIndex t) (bankOf t.tile n.toNat) n.toNat c.toNat
  | .sram t n none => haddr 1 t.quad.toNat (tileKind t.tile) (tileIndex t) (bankOf t.tile n.toNat) n.toNat
  | .flop t w => haddr 1 t.quad.toNat (tileKind t.tile) (tileIndex t) 0xFF w.toNat
  | .tile t => hOf t
  | .quad q => hQuad q.toNat
  | .engine => hEngine

/-- The first reporter for a site (R386): the tile that holds the bank or flop, else the root itself. -/
def siteReporter : Site → HAddr
  | .sram t _ _ => hOf t
  | .flop t _ => hOf t
  | x => siteRoot x

/-- Whether a site exists: its tile is active and holds the entry. -/
def siteExists : Site → Bool
  | .sram t n _ => tileActive t && decide (n.toNat < (tileSram t.tile).1)
  | .flop t _ => tileActive t
  | .tile t => tileActive t
  | _ => true

/-- Tile and entry of a request slot (R21). -/
def slotPlace (s : Nat) : TileAt × Nat :=
  (⟨BitVec.ofNat 2 (s / 16384), .rqt (BitVec.ofNat 2 (s % 16384 / 4096))⟩, s % 4096)

/-- Tile and entry of a row's sampler state (R22). -/
def rowPlace (r : Nat) : TileAt × Nat := (⟨BitVec.ofNat 2 (r % 4), .spr (BitVec.ofNat 4 (r / 4 % 16))⟩, r / 64)

/-- Entries of its lane that a row uses in a heat of `rows` rows (R22, R152). -/
def rowEntries (rows r : Nat) : List Nat :=
  let n := (rowPlace r).2
  if rows ≤ 2048 then [n, 32 + 3 * n, 33 + 3 * n, 34 + 3 * n] else [n]

/-- Quadrant and entry of heat plan `p` (R23). -/
def planHome (p : Nat) : Nat × Nat := (p % 4, p / 4)

/-- L1 row-state entry of row `r` in its home lane (R22). -/
def hRow (r : Nat) : HAddr :=
  let x := rowPlace r
  haddr 1 x.1.quad.toNat 2 (tileIndex x.1) (bankOf x.1.tile x.2) x.2

/-! ## Memory requests (R319) -/

def memIssue (r : MemReq) (e : Engine) : Engine :=
  let used := (e.port.tags.filter (fun t => t.1 / 256 == r.port.toNat)).map (fun t => t.1 % 256)
  match firstFree (sortBy (fun a b => decide (a < b)) used) 0 256 with
  | some t => { e with port := { e.port with tags := tset e.port.tags (r.port.toNat * 256 + t) r } }
  | none => { e with port := { e.port with memWait := e.port.memWait ++ [r] } }

/-- Issue waiting requests while tags are free. -/
def memPump (e : Engine) : Engine :=
  let w := e.port.memWait
  w.foldl (fun e r => memIssue r e) { e with port := { e.port with memWait := [] } }

/-- 64-byte lines of the bytes `[a, a + n)`. -/
def lineCount (a n : Nat) : Nat := if n = 0 then 0 else (a + n - 1) / 64 - a / 64 + 1

/-- Read the 64-byte lines of `n` bytes at `a` through a port. -/
def memRdIssue (port : Nat) (a n : Nat) (who : MemWho) (e : Engine) : Engine :=
  (List.range (lineCount a n)).foldl (fun e k =>
    memIssue { port := BitVec.ofNat 2 port, write := false, addr := (a / 64 + k) * 64, who := who } e) e

/-! ## Interrupt vectors (R302, R311) -/

def msgRoom (e : Engine) : Bool := decide (e.port.msgs.length < 256)

/-- The message a vector sends (R302). -/
def vecMsg (v : VecId) (e : Engine) : Msg :=
  { addr := reg e (vecBase v) &&& ~~~3#64, data := (reg e (vecBase v + 8)).setWidth 32 }

def msgQueue (m : Msg) (e : Engine) : Engine := { e with port := { e.port with msgs := e.port.msgs ++ [m] } }

/-- Raise a vector: nothing while EN is 0; PEND while masked or while 256 messages wait. -/
def raiseVec (v : VecId) (e : Engine) : Engine :=
  let o := vecBase v
  let c := reg e (o + 12)
  if !bit c 31 then e
  else if bit c 0 || !msgRoom e then setReg (o + 12) (setField c 1 1 1) e
  else msgQueue (vecMsg v e) e

/-- Write the message of a vector left pending, once it is unmasked and space is there. -/
def releaseVec (v : VecId) (e : Engine) : Engine :=
  let c := reg e (vecBase v + 12)
  if bit c 1 && bit c 31 && !bit c 0 && msgRoom e then
    raiseVec v (setReg (vecBase v + 12) (setField c 1 1 0) e)
  else e

/-- The message that a torn-down context's vector sends, masked or not; then EN is clear. With no room it waits, its PEND
set (R287, R311). -/
def lastRaise (v : VecId) (e : Engine) : Engine :=
  let c := reg e (vecCtrl v)
  if !bit c 31 then e
  else
    let off (pend : Nat) (e : Engine) : Engine := setReg (vecCtrl v) (setField (setField c 31 31 0) 1 1 pend) e
    if msgRoom e then msgQueue (vecMsg v e) (off 0 e)
    else { off 1 e with port := { e.port with owed := e.port.owed ++ [(v, vecMsg v e)] } }

/-- A message that waited for room is queued. -/
def owedMsg (e : Engine) : Engine :=
  match e.port.owed with
  | [] => e
  | (v, m) :: rest =>
    if msgRoom e then setRegF (vecCtrl v) 1 1 0 (msgQueue m { e with port := { e.port with owed := rest } }) else e

/-! ## Trace (R372, R373) -/

/-- Enter a record of trace type `ty`. -/
def tracePush (ty : Nat) (r : List Byte) (e : Engine) : Engine :=
  if !regB e rDBG_TRACE_CTRL 31 then e
  else
    let cap := if ty = 1 ∨ ty = 2 ∨ ty = 5 then 2048 else 1792
    if e.trace.queue.length < cap then
      { e with trace := { e.trace with queue := e.trace.queue ++ [(ty, padTo 32 r)] } }
    else bumpOpen rDBG_TRACE_STAT 63 32 1 { e with trace := { e.trace with lost := e.trace.lost + 1 } }

/-! ## Status rings (R55, R56, R60, R423) -/

def srSize (e : Engine) (tc : Nat) : Nat := 2 ^ regN e (rCP_SRING_BASE tc) 4 0

/-- Ring index of the next status entry: TAIL and the entries not yet visible. -/
def srNext (e : Engine) (tc : Nat) : U32 :=
  (reg e (rCP_SRING_TAIL tc)).setWidth 32 + BitVec.ofNat 32 (ten e tc).ring.inflight.length

def srSpace (e : Engine) (tc : Nat) : Bool :=
  regB e (rCP_RING_CTRL tc) 1
    && decide ((srNext e tc - (reg e (rCP_SRING_HEAD tc)).setWidth 32).toNat < srSize e tc)

def StEntry.bytes (n : StEntry) (phase : Bool) (stamp : Stamp) : List Byte :=
  let ph : Byte := if phase then 1 else 0
  if n.kind = 1 ∨ n.kind = 3 then
    patch (patch (padTo 32 n.raw) 2 [BitVec.ofNat 8 n.kind, ph]) 24 (le 8 stamp.toNat)
  else
    [n.status, n.opcode, BitVec.ofNat 8 n.kind, ph] ++ le 4 n.tag.toNat ++ le 6 n.estr.toNat
      ++ le 2 n.ridx.toNat ++ le 6 n.result.toNat ++ [n.target, 0] ++ le 8 stamp.toNat

/-- Write one entry to its slot; TAIL and the interrupt follow its write response (R60, R311). -/
def srWrite (tc : Nat) (n : StEntry) (e : Engine) : Engine :=
  let idx := srNext e tc
  let slot := idx.toNat % srSize e tc
  let a := (reg e (rCP_SRING_BASE tc)).toNat / 4096 * 4096 + 32 * slot
  let ph := (ten e tc).ring.phase
  let e := wr a (n.bytes ph e.time.stamp) e
  let e := modRing tc (fun r => { r with
    phase := if slot + 1 = srSize e tc then !ph else ph,
    inflight := r.inflight ++ [{ idx := idx, seen := false, vec := n.vec }] }) e
  memIssue { port := BitVec.ofNat 2 (tc % 4), write := true, addr := a / 64 * 64, who := .status tc idx } e

/-- Write waiting entries while the ring has space, at most `fuel` of them. -/
def srDrain (tc : Nat) : Nat → Engine → Engine
  | 0, e => e
  | fuel + 1, e =>
    match (ten e tc).ring.waiting with
    | [] => e
    | n :: ns =>
      if srSpace e tc then srDrain tc fuel (srWrite tc n (modRing tc (fun r => { r with waiting := ns }) e))
      else e

def stNotice (status result target : Nat) (e : Engine) : StEntry :=
  { kind := 2, status := BitVec.ofNat 8 status, opcode := 0, tag := 0, ridx := 0, estr := e.time.num,
    result := BitVec.ofNat 48 result, target := BitVec.ofNat 8 target, raw := [], vec := none }

/-- A notice equal in STATUS, TARGET and RESULT to one that waits is merged with it (R55). -/
def sameNotice (a b : StEntry) : Bool :=
  a.kind == 2 && b.kind == 2 && a.status == b.status && a.target == b.target && a.result == b.result

/-- Drain the waiting entries, then the EVENT_LOSS notice when records were discarded (R56). -/
def srFlush (tc : Nat) (e : Engine) : Engine :=
  let e := srDrain tc ((ten e tc).ring.waiting.length) e
  let r := (ten e tc).ring
  if r.lostEv ≠ 0 ∧ r.waiting.length < 1024 then
    let n := stNotice 0x42 r.lostEv 0 e
    let e := modRing tc (fun r => { r with
      lostEv := 0, waiting := if r.waiting.any (sameNotice n) then r.waiting else r.waiting ++ [n] }) e
    srDrain tc ((ten e tc).ring.waiting.length) e
  else e

/-- Replies and notices that wait for status-ring space (R55). -/
def srWaiting (e : Engine) (tc : Nat) : Nat :=
  ((ten e tc).ring.waiting.filter (fun n => n.kind == 0 || n.kind == 2)).length

/-- Too many packets unanswered, or too many entries waiting: fetch from the ring pauses (R55). -/
def fetchStalled (e : Engine) (tc : Nat) : Bool :=
  decide (256 ≤ (ten e tc).ring.accepted.length) || decide (64 ≤ srWaiting e tc)

/-- A limit reached sets SR_STALL (R55) (DEDUCED, log entry 85). -/
def srStall (tc : Nat) (e : Engine) : Engine := if fetchStalled e tc then setRegF (rCP_RING_STAT tc) 6 6 1 e else e

/-- Queue an entry for a tenant's status ring (R55, R56). Entries of packets already accepted wait even where 64 do
(DESIGN CHOICE, log entry 99). -/
def stPush (tc : Nat) (n : StEntry) (e : Engine) : Engine :=
  let w := (ten e tc).ring.waiting
  if w.any (sameNotice n) then e
  else if (n.kind == 1 || n.kind == 3) && decide (1024 ≤ w.length) then
    setRegF (rCP_RING_STAT tc) 4 4 1 (modRing tc (fun r => { r with lostEv := r.lostEv + 1 }) e)
  else srStall tc (srFlush tc (modRing tc (fun r => { r with waiting := r.waiting ++ [n] }) e))

/-- Queue a notice (KIND 0x02). -/
def notice (tc status result target : Nat) (e : Engine) : Engine :=
  stPush tc (stNotice status result target e) e

/-- The vector a packet of `ring` asks for (03_command_packets.md, command packet). -/
def hdrVec (h : Hdr) : Option VecId :=
  if !h.irq then none
  else if h.ring = 0 then some (.pv (h.vec.setWidth 5)) else some (.tv h.ring h.vec)

/-- Queue the reply to a packet (KIND 0x00, R60). -/
def reply (h : Hdr) (op status result : Nat) (e : Engine) : Engine :=
  stPush h.ring.toNat
    { kind := 0, status := BitVec.ofNat 8 status, opcode := BitVec.ofNat 8 op, tag := h.tag,
      ridx := h.ridx.setWidth 16, estr := e.time.num, result := BitVec.ofNat 48 result,
      target := h.target, raw := [], vec := hdrVec h } e

/-- Queue OP_COMPLETE on the packet's ring (R66). -/
def opComplete (h : Hdr) (e : Engine) : Engine :=
  notice h.ring.toNat 0x43 h.ridx.toNat h.target.toNat e

/-- OP_COMPLETE of an opcode that acts on no tenant context and ignores TARGET (R420): it concerns no tenant
(DEDUCED, log entry 86). -/
def opCompleteNoCtx (h : Hdr) (e : Engine) : Engine := opComplete { h with target := 0 } e

/-! ## Replay-event and discontinuity records (R361-R364) -/

/-- Note a replay-event record of the current stride. -/
def replayRec (code sub tc : Nat) (obj : U64) (e : Engine) : Engine :=
  { e with sched := { e.sched with recs := e.sched.recs ++ [(code, sub, tc, obj)] } }

/-- Write one replay-event record with the breaks of its stride (R361). -/
def replayWrite (x : Nat × Nat × Nat × U64) (e : Engine) : Engine :=
  let raw := [BitVec.ofNat 8 x.1, BitVec.ofNat 8 x.2.1, 1, 0] ++ le 4 e.sched.replaySeq.toNat
    ++ le 6 e.time.num.toNat ++ [e.sched.brk.setWidth 8, BitVec.ofNat 8 x.2.2.1] ++ le 8 x.2.2.2.toNat
    ++ le 8 e.time.stamp.toNat
  let n : StEntry := { kind := 1, status := 0, opcode := 0, tag := 0, ridx := 0, estr := e.time.num,
                       result := 0, target := 0, raw := raw, vec := none }
  let e := { e with sched := { e.sched with replaySeq := e.sched.replaySeq + 1 } }
  tracePush 1 raw (stPush 0 n e)

/-- Mark the current stride as a break of cause bit `i` (R361, BRK). -/
def markBreak (i : Nat) (e : Engine) : Engine :=
  { e with sched := { e.sched with brk := e.sched.brk ||| (1#6 <<< i) } }

/-- Write the records of the current stride, over once the next registers; a break without one is written with
CODE 0x09 (R363) (DEDUCED, log entry 16). -/
def sayBreak (e : Engine) : Engine :=
  let rs := if e.sched.recs.isEmpty ∧ e.sched.brk ≠ 0 then [(9, 0, 0, 0)] else e.sched.recs
  let e := rs.foldl (fun e x => replayWrite x e) e
  { e with sched := { e.sched with recs := [], brk := 0 } }

/-- A discontinuity record (R364) on TC0's ring and the trace port. -/
def discRec (retlost lock stop : Bool) (oldEp newEp : U16) (lstr : Stride) (lstamp : Stamp)
    (e : Engine) : Engine :=
  let raw := [BitVec.ofNat 8 (4 * b2n retlost + 2 * b2n lock + b2n stop), 0, 3, 0] ++ le 2 oldEp.toNat
    ++ le 2 newEp.toNat ++ le 6 lstr.toNat ++ [0, 0] ++ le 8 lstamp.toNat ++ le 8 e.time.stamp.toNat
  let n : StEntry := { kind := 3, status := 0, opcode := 0, tag := 0, ridx := 0, estr := e.time.num,
                       result := 0, target := 0, raw := raw, vec := none }
  tracePush 2 raw (stPush 0 n e)

/-! ## HOLD (R385) and hang snapshots (R377) -/

def inHold (e : Engine) : Bool :=
  e.flt.kat || e.flt.stride || e.flt.fault || e.flt.quad || e.lead.pacer.isNone

def hangOf (e : Engine) (q : Nat) : Hang := tget Hang.fresh e.hang q

/-- The tiles of quadrant `q`, in HADDR order. -/
def tilesOf (q : Nat) : List TileAt :=
  let on (ts : List Tile) : List TileAt := ts.map (fun t => ⟨BitVec.ofNat 2 q, t⟩)
  let left : Bool := decide ((q + 3) % 4 < (q + 1) % 4)
  on ((List.range 4).map (fun i => .rqt (BitVec.ofNat 2 i))) ++ on ((List.range 16).map (fun i => .spr (BitVec.ofNat 4 i)))
    ++ on ((List.range 4).map (fun i => .wlk (BitVec.ofNat 2 i))) ++ on ((List.range 4).map (fun i => .sq (BitVec.ofNat 2 i)))
    ++ on [.dp, .mp, .mem, .ixc, .mac, .hpt, .qms, .xl (!left), .xl left, .pf]
    ++ (if q = 0 then on [.glb .cp, .glb .rp, .glb .tp, .glb .kp, .glb .timeBase] else [])

/-- The tile of entry `i` of a snapshot of `q`: free, but never before an earlier entry's (R378). -/
def hangTile (base q : Nat) : Nat → Nat
  | 0 => (Config.snapshotWord base).toNat % (tilesOf q).length
  | i + 1 => max (hangTile base q i) ((Config.snapshotWord (base + 2 * (i + 1))).toNat % (tilesOf q).length)

/-- A port or link end: the owners of credits. -/
def isPort : Tile → Bool
  | .dp | .mp | .mem | .xl _ | .glb .rp | .glb .cp => true
  | _ => false

/-- The two words of entry `i` of a snapshot of `q` (R378): EKIND 1 queue, 2 wait, 3 credit, with the CODE and A each
has. Which entries a snapshot takes, and their counts, are free (DESIGN CHOICE, log entry 5). -/
def hangEntry (base q i : Nat) : Nat × Nat :=
  let ts := tilesOf q
  let t := ts.getD (hangTile base q i) ⟨0, .pf⟩
  let f := Config.snapshotWord (base + 2 * i + 1)
  let ekind := 1 + bits f 7 0 % (if isPort t.tile then 3 else 2)
  let on := ts.getD (bits f 23 16 % ts.length) ⟨0, .pf⟩
  let (code, a) := match ekind with
    | 1 => (0, bits f 31 16)
    | 2 => (bits f 15 8 % 9, tileKind on.tile * 256 + tileIndex on)
    | _ => (bits f 15 8 % 2, bits f 31 16)
  ((hOf t).toNat, ekind + code * 2 ^ 8 + a * 2 ^ 16 + bits f 63 32 * 2 ^ 32)

/-- Word `w` of a quadrant's snapshot buffer: header words as recorded, entries of 16 bytes from byte 64, zero past
the entries used (R377, R378). -/
def hangWord (h : Hang) (w : Nat) : U64 :=
  match h.words with
  | [] => 0
  | w0 :: _ => match h.words[w]? with
    | some v => v
    | none =>
      let i := (w - 8) / 2
      if i < bits w0 63 48 then
        let x := hangEntry h.base (bits w0 47 40) i
        BitVec.ofNat 64 (if w % 2 = 0 then x.1 else x.2)
      else 0

def hangHeader (cause q nent : Nat) (snapNo missed : U32) (e : Engine) : List U64 :=
  [ BitVec.ofNat 64 (0x7A484E47 + cause * 2 ^ 32 + q * 2 ^ 40 + nent * 2 ^ 48),
    BitVec.ofNat 64 (e.time.num.toNat + e.time.epoch.toNat * 2 ^ 48), e.time.stamp,
    BitVec.ofNat 64 (snapNo.toNat + missed.toNat * 2 ^ 32), 0, 0, 0, 0 ]

/-- Trigger a snapshot in quadrant `q`: a frozen buffer only counts the trigger (R377). -/
def hangSnap (cause q : Nat) (e : Engine) : Engine :=
  let h := hangOf e q
  if h.frozen then
    let m := BitVec.ofNat 32 (satAdd 32 h.missed.toNat 1)
    let ws := match h.words with
      | a :: b :: c :: _ :: r => a :: b :: c :: BitVec.ofNat 64 (h.snapNo.toNat + m.toNat * 2 ^ 32) :: r
      | l => l
    { e with hang := tset e.hang q { h with missed := m, words := ws } }
  else
    let nent := (Config.snapshotWord e.free).toNat % 4093
    let n := h.snapNo + 1
    { e with
      hang := tset e.hang q { h with frozen := true, words := hangHeader cause q nent n h.missed e,
                                     base := e.free + 1, snapNo := n },
      free := e.free + 8193 }

def hangAll (cause : Nat) (e : Engine) : Engine :=
  hangSnap cause 3 (hangSnap cause 2 (hangSnap cause 1 (hangSnap cause 0 e)))

/-- Run an update; when it puts the engine in HOLD, each quadrant takes a snapshot (R377). -/
def holdWatch (f : Engine → Engine) (e : Engine) : Engine :=
  let e' := f e
  if !inHold e && inHold e' then hangAll 2 e' else e'

/-! ## Fault reports (R383-R390) -/

/-- Class code (R383). -/
def faultCode : FaultClass → Nat
  | .eccCorr => 0x01 | .eccObject => 0x02 | .eccTenant => 0x03 | .eccQuad => 0x04 | .eccEngine => 0x05
  | .drainProtocol => 0x10 | .memError => 0x11 | .memTimeout => 0x12 | .strideRepeat => 0x13
  | .strideGap => 0x14 | .boundaryEarly => 0x15 | .leadership => 0x20 | .quadOut => 0x21
  | .stitchLink => 0x22 | .brewKat => 0x23 | .placement => 0x24 | .sqCheck => 0x25
  | .versionFenceBreach => 0x30 | .tenantReset => 0x31 | .laneReset => 0x32

/-- Containment scope of a class (R383); a scope-2 fault of TC0 is handled as scope 5 (R282). -/
def scopeOf (c : FaultClass) (tc : Nat) (afterWake : Bool) : Nat :=
  match c with
  | .eccCorr | .drainProtocol | .strideGap | .boundaryEarly | .versionFenceBreach => 0
  | .eccObject | .memError | .memTimeout => 1
  | .eccTenant | .tenantReset => if tc = 0 then 5 else 2
  | .laneReset => 3
  | .eccQuad | .quadOut | .stitchLink | .sqCheck => 4
  | .eccEngine | .leadership | .brewKat | .placement => 5
  | .strideRepeat => if afterWake then 5 else 0

/-- The bytes of a trace record of type 5 (R388). -/
def faultTrace (r : FRec) : List Byte :=
  [BitVec.ofNat 8 (faultCode r.cls), BitVec.ofNat 8 r.scope, r.tc, if r.opened then 1 else 0]
    ++ le 4 r.count.toNat ++ le 8 r.root.toNat ++ le 8 r.reporter.toNat ++ le 8 r.last.toNat

/-- Raise the fault interrupt of a class, or hold it back inside its 10 us (R389). -/
def faultIrq (c : FaultClass) (scope : Nat) (e : Engine) : Engine :=
  if !regB e rFLT_CTRL 31 || decide (scope < regN e rFLT_CTRL 18 16) then e
  else if e.flt.raised.any (fun r => r.1 == c && decide ((e.time.stamp - r.2).toNat < 10000)) then
    { e with flt := { e.flt with
      heldRaise := if e.flt.heldRaise.contains c then e.flt.heldRaise else e.flt.heldRaise ++ [c] } }
  else
    raiseVec (.pv (BitVec.ofNat 5 (regN e rFLT_CTRL 28 24))) { e with flt := { e.flt with
      raised := e.flt.raised.filter (fun r => r.1 != c) ++ [(c, e.time.stamp)] } }

/-- Nanoseconds of a record's coalescing window: FLT_CTRL.WIN microseconds, 0 as 1 (R387). -/
def winNs (e : Engine) : Nat := 1000 * max 1 (regN e rFLT_CTRL 15 0)

/-- A record whose window has not passed; a window does not outlast its stamp epoch (DEDUCED, log entry 79). -/
def recLive (e : Engine) (r : FRec) : Bool :=
  r.opened && r.epoch == e.time.epoch && decide ((e.time.stamp - r.first).toNat < winNs e)

/-- The coalescing window of record `k` closes, with its trace record (R387, R388). -/
def recClose (k : Nat) (r : FRec) (e : Engine) : Engine :=
  let r := { r with opened := false }
  tracePush 5 (faultTrace r) { e with flt := { e.flt with recs := tset e.flt.recs k r } }

/-- Close the records of a class and root whose window has passed. -/
def recExpire (c : FaultClass) (root : HAddr) (e : Engine) : Engine :=
  (e.flt.recs.filter (fun r => r.2.cls == c && r.2.root == root && r.2.opened && !recLive e r.2)).foldl
    (fun e r => recClose r.1 r.2 e) e

/-- Index at which a new fault record of quadrant `q` goes: a free one, else the oldest closed record
of scope 0 (R387). -/
def recPlace (recs : Table FRec) (q : Nat) : Option Nat :=
  let mine := recs.filter (fun r => r.1 / 448 == q)
  match firstFree (mine.map (·.1)) (q * 448) (q * 448 + 448) with
  | some i => some i
  | none =>
    let old := mine.filter (fun r => r.2.scope == 0 && !r.2.opened)
    (sortBy (fun (a b : Nat × FRec) => decide (a.2.ord < b.2.ord)) old).head?.map (·.1)

/-- Step 2 or a later step of an entry of the engine to SLEEP or deeper is under way (R359): no stride's work runs. -/
def entryDeep (e : Engine) : Bool := e.pwr.entry.any (fun x => x.quad.isNone && decide (3 ≤ x.target ∧ 1 ≤ x.step))

/-- Work of strides, which an entry to SLEEP or deeper ends (R359). -/
def strideWork (f : Engine → Engine) (e : Engine) : Engine := if entryDeep e then e else f e

/-- The epoch a quadrant holds (R391). -/
def heldEpoch (e : Engine) (q : Nat) : U32 := tget 0 e.lead.held q

/-- State of a unit, transitions apart. -/
def unitState (e : Engine) (u : Nat) : Nat := (tget? e.pwr.quads u).getD e.pwr.eng

/-- A quadrant in RUN or STOP (R349, R379, R391); entry to STOP keeps it there (R347). -/
def quadUp (e : Engine) (q : Nat) : Bool := decide (unitState e q < 2)

/-- Link `l` joins quadrant `l` to quadrant `l + 1`; it works while it is up and both ends run
(DEDUCED, log entry 21). -/
def linkOk (e : Engine) (l : Nat) : Bool :=
  let alive (q : Nat) : Bool := quadUp e q && !e.lead.resetQ.getLsbD q
  e.lead.linkUp.getLsbD l && alive l && alive ((l + 1) % 4)

/-- The route of R28 from `a` to `b` works: the common link, or clockwise over two. -/
def reach (e : Engine) (a b : Nat) : Bool :=
  if a = b then true
  else if b = (a + 1) % 4 then linkOk e a
  else if a = (b + 1) % 4 then linkOk e b
  else linkOk e a && linkOk e ((a + 1) % 4)

/-- The quadrant that records a report: the root's, or Q0 when the reporter's cannot reach it (R386). -/
def recHome (e : Engine) (root reporter : HAddr) : Nat :=
  if e.lead.resetQ.getLsbD (hadQuad root) || !reach e (hadQuad reporter) (hadQuad root) then 0 else hadQuad root

/-- Record a report (R386, R387), with the interrupt (R389) and the root (R390) of a new record. -/
def faultRecord (c : FaultClass) (tc : U8) (scope : Nat) (root reporter : HAddr) (detail : U64)
    (fstr : Stride) (e : Engine) : Engine :=
  let e := recExpire c root e
  match e.flt.recs.find? (fun r => r.2.cls == c && r.2.root == root && r.2.opened) with
  | some (k, r) =>
    { e with flt := { e.flt with recs := tset e.flt.recs k { r with
      count := BitVec.ofNat 32 (satAdd 32 r.count.toNat 1), lstr := e.time.num, last := e.time.stamp } } }
  | none =>
    match recPlace e.flt.recs (recHome e root reporter) with
    | none => bumpSat rFLT_STAT 15 0 1 e
    | some k =>
      let r : FRec := {
        cls := c, scope := scope, tc := tc, opened := true, count := 1, root := root,
        reporter := reporter, fstr := fstr, lstr := fstr, epoch := e.time.epoch, first := e.time.stamp,
        last := e.time.stamp, detail := detail, ord := e.flt.recNo }
      let better := !e.flt.rootValid || decide (e.flt.rootScope < scope)
      let e := { e with flt := { e.flt with recs := tset e.flt.recs k r, recNo := e.flt.recNo + 1 } }
      let e := if better then { e with flt := { e.flt with
          rootRec := some (k / 448, k % 448), rootHaddr := root, rootCls := BitVec.ofNat 8 (faultCode c),
          rootScope := scope, rootValid := true } } else e
      faultIrq c scope (tracePush 5 (faultTrace r) (bumpSat rFLT_STAT 31 16 1 e))

/-- Register an external event: it takes effect at the stride after this one (R41). -/
def addExt (x : ExtEv) (e : Engine) : Engine :=
  { e with sched := { e.sched with ext := e.sched.ext ++ [(e.time.num, x)] } }

/-- Register the containment of a fault for the next stride (R383, R287, R41). -/
def faultContain (c : FaultClass) (tc : U8) (obj : FaultObj) (scope : Nat) (e : Engine) : Engine :=
  match scope with
  | 0 => e
  | 2 => addExt (.teardown tc c) e
  | _ => { e with flt := { e.flt with due := e.flt.due ++ [{ cls := c, tc := tc, obj := obj }] } }

/-- Report a fault: counts, record, and containment at the next stride; BREW_KAT and a STRIDE_REPEAT
after a wake enter HOLD at once (R189, R34). -/
def faultAt (c : FaultClass) (tc : U8) (obj : FaultObj) (root reporter : HAddr) (detail : U64)
    (fstr : Stride) (afterWake : Bool) (e : Engine) : Engine :=
  let scope := scopeOf c tc.toNat afterWake
  let e := count 2 14 1 (bumpOpen rFLT_STAT 63 32 1 e)
  let e := match c with
    | .eccCorr => count 2 (hadQuad root) 1 e
    | .eccObject | .eccTenant | .eccQuad | .eccEngine => count 2 (4 + hadQuad root) 1 e
    | _ => e
  let e := if c = .placement then e else faultRecord c tc scope root reporter detail fstr e
  match c with
  | .brewKat => holdWatch (fun e => { e with flt := { e.flt with kat := true } }) e
  | .strideRepeat =>
    if afterWake then holdWatch (fun e => { e with flt := { e.flt with stride := true } }) e else e
  | .placement | .leadership => e
  | _ => faultContain c tc obj scope e

def fault (c : FaultClass) (tc : U8) (obj : FaultObj) (root reporter : HAddr) (detail : U64)
    (e : Engine) : Engine := faultAt c tc obj root reporter detail e.time.num false e

/-- DRAIN_PROTOCOL for a block or word on port `q` (R386). -/
def drainFault (q : Quad) (tag : U64) (e : Engine) : Engine :=
  fault .drainProtocol 0 .none (hTile q.toNat 5 q.toNat) (hTile q.toNat 5 q.toNat) tag e

/-! ## Manifest ports (R317, R318) -/

def mpOf (e : Engine) (q : Nat) : MpPort := tget MpPort.fresh e.port.mp q
def setMp (q : Nat) (p : MpPort) (e : Engine) : Engine :=
  { e with port := { e.port with mp := tset e.port.mp q p } }

/-- Send beats of 16 units while credits are held. -/
def mpBeats : Nat → MpPort → MpPort
  | 0, p => p
  | fuel + 1, p =>
    if p.crd = 0 ∨ p.queue.isEmpty then p
    else mpBeats fuel { queue := p.queue.drop 16, crd := p.crd - 1, sent := p.sent ++ p.queue.take 16 }

def mpFlush (q : Nat) (e : Engine) : Engine := setMp q (mpBeats (mpOf e q).queue.length (mpOf e q)) e

def mpPush (q : Nat) (us : List MpUnit) (e : Engine) : Engine :=
  if us.isEmpty then e
  else mpFlush q (setMp q { mpOf e q with queue := (mpOf e q).queue ++ us } e)

def recUnit (b : List Byte) : MpUnit := { record := true, som := false, bytes := padTo 32 b }

/-- Issue records on manifest port `q`; with a copy to trace when `copy` (R372, type 7). -/
def mpRecords (q : Nat) (copy : Bool) (rs : List (List Byte)) (e : Engine) : Engine :=
  let e := mpPush q (rs.map recUnit) e
  if copy && regB e rDBG_TRACE_CTRL 2 then rs.foldl (fun e r => tracePush 7 r e) e else e

/-! ## Relay port (R321, R322) -/

def relayOn (e : Engine) : Bool :=
  regB e rCP_RELAY_CFG 31 && reg e rCP_RELAY_ID != 0 && reg e rCP_RELAY_ID != 0xFFFFFFFF

/-- The relay header with its payload, CRC field zero. -/
def relayRaw (kind len : Nat) (src dst seq : U32) (stamp : Stamp) (epoch : U16) (crc : U32) : List Byte :=
  [0x7A, BitVec.ofNat 8 kind] ++ le 2 len ++ le 4 src.toNat ++ le 4 dst.toNat ++ le 4 seq.toNat
    ++ le 8 stamp.toNat ++ le 2 epoch.toNat ++ [4, 0] ++ le 4 crc.toNat

/-- Send a message: nothing while the relay is off (R322). Payload padded to whole flits. -/
def relaySend (kind : Nat) (dst : U32) (payload : List Byte) (e : Engine) : Engine :=
  if !relayOn e then e
  else
    let me := (reg e rCP_RELAY_ID).setWidth 32
    let h (c : U32) := relayRaw kind payload.length me dst e.relay.seq e.time.stamp e.time.epoch c
    let m := h (crc32c (h 0 ++ payload)) ++ payload
    let m := padTo (ceilDiv m.length 64 * 64) m
    count 1 16 m.length { e with relay := { e.relay with seq := e.relay.seq + 1, out := e.relay.out ++ [m] } }

/-! ## Lane orders (R294) -/

def laneOf (e : Engine) (l : Nat) : Lane := tget Lane.fresh e.lanes.lanes l
def setLane (l : Nat) (x : Lane) (e : Engine) : Engine :=
  { e with lanes := { e.lanes with lanes := tset e.lanes.lanes l x } }

/-- Issue a lane-order record: OP 1 STOP_CHEAP, 2 STOP_NOW, 3 RESUME, 4 RELEASE. -/
def laneOrderAt (istr : Stride) (l op tc : Nat) (region pred : U32) (e : Engine) : Engine :=
  let sq := e.lanes.seq
  let r := le 4 sq.toNat ++ [BitVec.ofNat 8 tc, BitVec.ofNat 8 (6 * 16 + op), BitVec.ofNat 8 l, 0]
    ++ le 4 region.toNat ++ le 4 pred.toNat ++ le 4 (istr.toNat % 2 ^ 32) ++ zeros 4
    ++ le 8 e.time.stamp.toNat
  let e := { e with lanes := { e.lanes with seq := sq + 1 } }
  let e := setLane l { laneOf e l with order := some sq } e
  mpRecords (l % 4) false [r] e

/-- Issue a lane order of the current stride. -/
def laneOrder (l op tc : Nat) (region pred : U32) (e : Engine) : Engine :=
  laneOrderAt e.time.num l op tc region pred e

/-- Lanes in a state of a list, owned by `tc`. -/
def lanesOf (e : Engine) (tc : Nat) (sts : List LnState) : List Nat :=
  (List.range 64).filter (fun l => sts.contains (laneOf e l).st && (laneOf e l).tc == tc)

/-! ## Time on an idle step (DESIGN CHOICE, log entry 3) -/

/-- Every vector there is state for: PV0-PV31, then TV0-TV7 of each known context. -/
def allVecs (e : Engine) : List VecId :=
  (List.range 32).map (fun v => .pv (BitVec.ofNat 5 v))
    ++ (tenants e).flatMap (fun t => (List.range 8).map (fun v => .tv (BitVec.ofNat 8 t) (BitVec.ofNat 3 v)))

/-- One TBCLK nanosecond: the stamp counts, one interrupt message leaves, and a vector left pending by
a full queue is written (R47, R302, R311). -/
def tick (e : Engine) : Engine :=
  let e := if e.time.tbRun then { e with time := { e.time with stamp := e.time.stamp + 1 } } else e
  match e.port.msgs with
  | [] => e
  | m :: ms =>
    let e := { e with port := { e.port with msgs := ms, sent := e.port.sent ++ [m] } }
    (allVecs e).foldl (fun e v => releaseVec v e) (owedMsg e)

end Sys2Proof.Machine
end

