-- ==== Sys2Proof/Machine/Brew.lean ====
section
/-! DEFINITION. Brew random streams (09_brew_random_streams.md): the generator, stream keys and draws,
the grant table. -/

namespace Sys2Proof.Machine

/-- Four 32-bit words: a key, a counter or a block (R187). -/
structure W4 where
  a : U32
  b : U32
  c : U32
  d : U32
  deriving DecidableEq, Repr

def W4.toNat (w : W4) : Nat :=
  w.a.toNat + w.b.toNat * 2 ^ 32 + w.c.toNat * 2 ^ 64 + w.d.toNat * 2 ^ 96

def w4of (v : U128) : W4 :=
  { a := v.extractLsb' 0 32, b := v.extractLsb' 32 32, c := v.extractLsb' 64 32, d := v.extractLsb' 96 32 }

def W4.val (w : W4) : U128 := BitVec.ofNat 128 w.toNat

def W4.xor (x y : W4) : W4 := { a := x.a ^^^ y.a, b := x.b ^^^ y.b, c := x.c ^^^ y.c, d := x.d ^^^ y.d }

/-- Word `i` of 0-3. -/
def W4.word (w : W4) (i : Nat) : U32 :=
  match i with
  | 0 => w.a
  | 1 => w.b
  | 2 => w.c
  | _ => w.d

def rotl (x : U32) (n : Nat) : U32 := (x <<< n) ||| (x >>> (32 - n))

/-- Word `i` of the key schedule (R187). -/
def brewKs (k : W4) (i : Nat) : U32 :=
  match i with
  | 0 => k.a
  | 1 => k.b
  | 2 => k.c
  | 3 => k.d
  | _ => k.a ^^^ k.b ^^^ k.c ^^^ k.d ^^^ 0x6C8E9CF5#32

/-- Injection `j` (R187). -/
def brewInject (k : W4) (j : Nat) (x : W4) : W4 :=
  let add (i : Nat) : U32 := brewKs k ((i + 3 * j) % 5) + BitVec.ofNat 32 j * 0x5D2B8C71#32
  { a := x.a + add 0, b := x.b + add 1, c := x.c + add 2, d := x.d + add 3 }

/-- One mixing round with rotations `ra` and `rb`, and the word rotation. -/
def brewRound (ra rb : Nat) (x : W4) : W4 :=
  let a := x.a + x.b
  let b := rotl (x.b ^^^ a) ra
  let c := x.c + x.d
  let d := rotl (x.d ^^^ c) rb
  { a := b, b := c, c := d, d := a }

/-- Two rounds and an injection. -/
def brewPair (k : W4) (j ra0 rb0 ra1 rb1 : Nat) (x : W4) : W4 :=
  brewInject k j (brewRound ra1 rb1 (brewRound ra0 rb0 x))

/-- BREW(k, c) (R187). -/
def brew (k c : W4) : W4 :=
  let x : W4 := { a := c.a + k.a, b := c.b + k.b, c := c.c + k.c, d := c.d + k.d }
  brewPair k 5 15 12 19 26 (brewPair k 4 25 14 9 6 (brewPair k 3 17 9 5 23
    (brewPair k 2 21 19 11 27 (brewPair k 1 13 29 7 3 x))))

/-- The key of a stream (R192). -/
def streamKey (seed : U128) (cls : Nat) (rid salt base : U32) : W4 :=
  brew (w4of seed) { a := base, b := salt, c := rid, d := 0xB7E00000#32 ||| BitVec.ofNat 32 cls }

/-- The word of a stream at (STEPH 0, STEP, TAG, POS, WIDX) (R190). -/
def draw (key : W4) (step : U32) (tag pos widx : Nat) : U32 :=
  (brew key { a := BitVec.ofNat 32 (widx / 4 % 2 ^ 30), b := BitVec.ofNat 32 (tag % 4096 * 2 ^ 20 + pos % 2 ^ 20),
              c := step, d := 0 }).word (widx % 4)

/-- Byte draw of byte index `e` (R190). -/
def drawByte (key : W4) (step : U32) (tag pos e : Nat) : U8 :=
  ((draw key step tag pos (e / 4)) >>> (8 * (e % 4))).setWidth 8

/-- SEEDCHK of a tenant seed (R209). -/
def seedChk (seed : U128) : U32 := (brew (w4of seed) { a := 0, b := 0, c := 0, d := 0xB7E000FF#32 }).a

/-- The uniform variate of a word as an odd multiple of 2^-24 (R202). -/
def uniform24 (w : U32) : Nat := 2 * (w >>> 9).toNat + 1

/-- The counter register of a Brew cell in sequential mode after `n` blocks (R201): 1 is added to c[0],
carrying into c[1]. -/
def seqCounter (seq0 tile : U32) (n : Nat) : W4 :=
  let v := seq0.toNat + tile.toNat * 2 ^ 32 + n
  { a := BitVec.ofNat 32 v, b := BitVec.ofNat 32 (v / 2 ^ 32), c := 0, d := 0 }

/-! ## The grant table (R197, R198) -/

def grantOn (e : Engine) : Bool := regB e rBRW_GRANT_BASE 0
def grantAddr (e : Engine) (tc n : Nat) : Nat :=
  (reg e rBRW_GRANT_BASE).toNat / 2 ^ 17 * 2 ^ 17 + 512 * tc + 32 * n

def grantBytes (seed : U128) (tc n : Nat) (s : Strm) : List Byte :=
  le 16 (streamKey seed s.cls s.rid s.salt s.base).toNat
    ++ [BitVec.ofNat 8 s.cls, 1, BitVec.ofNat 8 tc, BitVec.ofNat 8 n] ++ le 4 s.rid.toNat ++ zeros 8

/-- Write the grant entry of stream `n`, while EN is 1. -/
def grantWrite (tc n : Nat) (s : Strm) (e : Engine) : Engine :=
  if grantOn e then wr (grantAddr e tc n) (grantBytes (ten e tc).tseed tc n s) e else e

/-- Write the entries of every open stream of a tenant. -/
def grantTenant (tc : Nat) (e : Engine) : Engine :=
  ((ten e tc).streams.filter (fun s => !s.2.clearing)).foldl (fun e s => grantWrite tc s.1 s.2 e) e

/-- Open streams of a tenant (R191-R195). -/
def openStreams (e : Engine) (tc : Nat) : Table Strm := (ten e tc).streams.filter (fun s => !s.2.clearing)

/-- Close streams of a tenant that satisfy `p`: numbers become free at the next boundary (R195). -/
def closeStreams (tc : Nat) (p : Nat → Strm → Bool) (e : Engine) : Engine :=
  modTen tc (fun t => { t with
    streams := t.streams.map (fun s => if p s.1 s.2 then (s.1, { s.2 with clearing := true }) else s) }) e

/-- Boundary: clear the VALID byte of each closed stream's entry and free its number (R195). -/
def streamsFree (tc : Nat) (e : Engine) : Engine :=
  let cl := (ten e tc).streams.filter (fun s => s.2.clearing)
  if cl.isEmpty then e
  else
    let e := if grantOn e then cl.foldl (fun e s => wr (grantAddr e tc s.1 + 17) [0] e) e else e
    modTen tc (fun t => { t with streams := t.streams.filter (fun s => !s.2.clearing) }) e

/-- SGRANT of a row of a request (R198). -/
def sgrantOf (e : Engine) (tc : Nat) (rid : U32) : U32 :=
  if !grantOn e then 0
  else
    let o := openStreams e tc
    let enc (p : Nat × Strm) : U32 := BitVec.ofNat 32 (2 ^ 31 + p.2.cls * 2 ^ 28 + p.1)
    match o.find? (fun s => s.2.cls == 2 && s.2.rid == rid) with
    | some p => enc p
    | none => match o.find? (fun s => s.2.cls == 3) with
      | some p => enc p
      | none => 0

end Sys2Proof.Machine
end

