-- ==== Sys2Proof/Machine/Requests.lean ====
section
/-! DEFINITION. Request records, slots, the spill area, the ends of requests and the rollout store
(04_request_table_and_admission.md R74-R90, 12_rl_turns_and_learning.md R266). -/

namespace Sys2Proof.Machine

/-- STATE codes (R75). -/
def stCode : RState → Nat
  | .admitted => 1 | .prefilling => 2 | .running => 3 | .paused => 4 | .parked => 5
  | .handedOff => 6 | .finished => 7 | .cancelled => 8 | .failed => 9

def stOf : Nat → Option RState
  | 1 => some .admitted | 2 => some .prefilling | 3 => some .running | 4 => some .paused
  | 5 => some .parked | 6 => some .handedOff | 7 => some .finished | 8 => some .cancelled
  | 9 => some .failed | _ => none

def terminal : RState → Bool
  | .finished | .cancelled | .failed => true
  | _ => false

/-- PREFILLING or RUNNING. -/
def active : RState → Bool
  | .prefilling | .running => true
  | _ => false

/-- Context length (R75). -/
def ctxOf (r : Req) : Nat := r.d.promptLen + r.e.gen

/-! ## Record layout (R74, R75) -/

def Desc.flags (d : Desc) : Nat :=
  128 * b2n d.lc + 64 * b2n d.rollout + 32 * b2n d.fallbackEn + 8 * d.lateRule + 4 * b2n d.greedy
    + 2 * b2n d.logprobEn

/-- Bytes 0-95; byte 95 holds `tc` in the spill area (R78). -/
def Desc.bytes (d : Desc) (tc : Nat) : List Byte :=
  le 4 d.rid.toNat ++ le 1 d.model ++ le 1 d.flags ++ le 1 d.prio ++ le 1 d.topn ++ le 4 d.maxTokens
    ++ le 4 d.promptLen ++ le 8 d.budgetNs ++ le 4 d.firstNs ++ le 4 d.stopHandle.toNat
    ++ le 8 d.promptAddr ++ le 4 d.maskHandle.toNat ++ le 4 d.adjHandle.toNat ++ le 2 d.adapter
    ++ le 2 d.adapterVer ++ le 2 d.expset ++ le 2 d.temp.toNat ++ le 2 d.topk ++ le 2 d.topp
    ++ le 2 d.minp ++ le 1 d.specMax ++ [0] ++ le 2 d.pres.toNat ++ le 2 d.freq.toNat
    ++ le 4 d.salt.toNat ++ le 4 d.minTokens ++ zeros 19 ++ le 1 tc

/-- Bytes 96-127. -/
def EngRec.bytes (r : EngRec) : List Byte :=
  le 1 (64 * r.parkCause + 16 * b2n r.theld + stCode r.st) ++ le 1 (32 * r.seq + r.reason) ++ le 2 r.pinVer
    ++ le 4 (2 ^ 31 * b2n r.fbk + 2 ^ 30 * b2n r.lateSeen + 2 ^ 29 * b2n r.repin + 2 ^ 28 * b2n r.pvset
        + r.gen)
    ++ le 4 r.stopm.toNat ++ le 4 r.kvpos ++ le 6 r.dl.toNat ++ le 6 r.ft.toNat ++ le 2 r.pverMin.toNat
    ++ le 2 r.wait

def recBytes (r : Req) (tc : Nat) : List Byte := r.d.bytes tc ++ r.e.bytes

def parseDesc (b : List Byte) : Desc :=
  let f := byteAt b 5
  { rid := BitVec.ofNat 32 (fieldAt b 0 4), model := byteAt b 4, lc := nbit f 7, rollout := nbit f 6,
    fallbackEn := nbit f 5, lateRule := nbits f 4 3, greedy := nbit f 2, logprobEn := nbit f 1,
    prio := byteAt b 6, topn := byteAt b 7, maxTokens := fieldAt b 8 4, promptLen := fieldAt b 12 4,
    budgetNs := fieldAt b 16 8, firstNs := fieldAt b 24 4, stopHandle := BitVec.ofNat 32 (fieldAt b 28 4),
    promptAddr := fieldAt b 32 8, maskHandle := BitVec.ofNat 32 (fieldAt b 40 4),
    adjHandle := BitVec.ofNat 32 (fieldAt b 44 4), adapter := fieldAt b 48 2, adapterVer := fieldAt b 50 2,
    expset := fieldAt b 52 2, temp := BitVec.ofNat 16 (fieldAt b 54 2), topk := fieldAt b 56 2,
    topp := fieldAt b 58 2, minp := fieldAt b 60 2, specMax := byteAt b 62,
    pres := BitVec.ofNat 16 (fieldAt b 64 2), freq := BitVec.ofNat 16 (fieldAt b 66 2),
    salt := BitVec.ofNat 32 (fieldAt b 68 4), minTokens := fieldAt b 72 4 }

/-- Engine-owned bytes of a 128-byte record; a STATE that names no request reads as ADMITTED (callers
check STATE first). -/
def parseEng (b : List Byte) : EngRec :=
  let f := fieldAt b 100 4
  { parkCause := nbits (byteAt b 96) 7 6, theld := nbit (byteAt b 96) 4,
    st := (stOf (byteAt b 96 % 16)).getD .admitted, seq := nbits (byteAt b 97) 7 5,
    reason := byteAt b 97 % 32, pinVer := fieldAt b 98 2, fbk := nbit f 31, lateSeen := nbit f 30,
    repin := nbit f 29, pvset := nbit f 28, gen := f % 2 ^ 19, stopm := BitVec.ofNat 32 (fieldAt b 104 4),
    kvpos := fieldAt b 108 4 % 2 ^ 21, dl := BitVec.ofNat 48 (fieldAt b 112 6),
    ft := BitVec.ofNat 48 (fieldAt b 118 6), pverMin := BitVec.ofNat 16 (fieldAt b 124 2),
    wait := fieldAt b 126 2 }

/-- bf16 pattern is finite. -/
def bfFinite (x : U16) : Bool := (x >>> 7).toNat % 256 != 255

/-- Every field inside its range of R74; reserved and engine-owned bytes zero (R76 check 2). -/
def descOk (b : List Byte) (rid : U32) : Bool :=
  let d := parseDesc b
  d.rid == rid && decide (d.model < 32) && !nbit (byteAt b 5) 0 && d.lateRule != 3 && decide (d.topn ≤ 20)
    && decide (1 ≤ d.maxTokens ∧ d.maxTokens ≤ 262144) && decide (1 ≤ d.promptLen ∧ d.promptLen ≤ 1048575)
    && d.promptAddr % 64 == 0
    && (d.greedy || (bfFinite d.temp && !d.temp.getLsbD 15 && d.temp != 0))
    && decide (d.topk ≤ 256) && decide (d.specMax ≤ 64) && zeroRange b 63 64 && bfFinite d.pres
    && bfFinite d.freq && decide (d.minTokens ≤ d.maxTokens) && zeroRange b 76 128

/-- Engine-owned fields of a new request (R76). -/
def EngRec.fresh : EngRec :=
  { parkCause := 0, theld := false, st := .admitted, seq := 0, reason := 0, pinVer := 0xFFFF, fbk := false,
    lateSeen := false, repin := false, pvset := false, gen := 0, stopm := 0, kvpos := 0, dl := noDl,
    ft := noDl, pverMin := 0, wait := 0 }

/-- DESIGN CHOICE for PKV, log entry 116. -/
def Work.fresh : Work :=
  { aslot := none, prefixHit := 0, kvReady := false, notBefore := none, walk := none, waitOrd := [],
    table := [], pages := [], priv := false, pauseDue := none, kvposPause := 0,
    repinTok := false, repinDue := false, lateHeat := false, roHeld := false, holdEnd := none, freeNext := false,
    window := [], winDue := false, draft := Draft.empty, watch := 0, baton := none, received := false, uid := 0, lastPver := 0 }

/-! ## Slots -/

def reqAt (e : Engine) (slot : Nat) : Option Req := tget? e.rq.slots slot

def setReq (slot : Nat) (r : Req) (e : Engine) : Engine :=
  { e with rq := { e.rq with slots := tset e.rq.slots slot r } }

def modReq (slot : Nat) (f : Req → Req) (e : Engine) : Engine :=
  { e with rq := { e.rq with slots := tmod e.rq.slots slot f } }

def modEng (slot : Nat) (f : EngRec → EngRec) (e : Engine) : Engine :=
  modReq slot (fun r => { r with e := f r.e }) e

def modWork (slot : Nat) (f : Work → Work) (e : Engine) : Engine :=
  modReq slot (fun r => { r with w := f r.w }) e

def findSlot (e : Engine) (tc : Nat) (rid : U32) : Option (Nat × Req) :=
  e.rq.slots.find? (fun p => p.2.tc == tc && p.2.d.rid == rid)

def findParked (e : Engine) (tc : Nat) (rid : U32) : Option Parked :=
  e.rq.parked.find? (fun p => p.req.tc == tc && p.req.d.rid == rid)

/-- RID held by a live request of the tenant or by one in its terminal hold (R76, R81). -/
def ridInUse (e : Engine) (tc : Nat) (rid : U32) : Bool :=
  (findSlot e tc rid).isSome || (findParked e tc rid).isSome

/-- The request of a `uid`: its slot when it holds one. -/
def reqByUid (e : Engine) (uid : Nat) : Option (Option Nat × Req) :=
  match e.rq.slots.find? (fun p => p.2.w.uid == uid) with
  | some (s, r) => some (some s, r)
  | none => (e.rq.parked.find? (fun p => p.req.w.uid == uid)).map (fun p => (none, p.req))

/-- A number no request has had, for a new one. -/
def takeUid (e : Engine) : Nat × Engine :=
  (e.rq.nextUid, { e with rq := { e.rq with nextUid := e.rq.nextUid + 1 } })

/-- Discard a held draft; PKV stays (R164, R169). -/
def Draft.drop (d : Draft) : Draft := { Draft.empty with pkv := d.pkv }

def slotsOf (e : Engine) (tc : Nat) : Table Req := e.rq.slots.filter (fun p => p.2.tc == tc)
def parkedOf (e : Engine) (tc : Nat) : List Parked := e.rq.parked.filter (fun p => p.req.tc == tc)

/-- Requests of a tenant in every state other than FREE (R283). -/
def reqCount (e : Engine) (tc : Nat) : Nat := (slotsOf e tc).length + (parkedOf e tc).length

/-- Slot assigned under R77, quota aside. -/
def slotSearch (e : Engine) (tc : Nat) : Option Nat :=
  let keys := tkeys e.rq.slots
  let try_ (q : Nat) : Option Nat :=
    firstFree (keys.filter (fun k => k / 16384 == q)) (q * 16384) (q * 16384 + 16384)
  match try_ (tc % 4), try_ ((tc + 1) % 4), try_ ((tc + 2) % 4), try_ ((tc + 3) % 4) with
  | some s, _, _, _ => some s
  | none, some s, _, _ => some s
  | none, none, some s, _ => some s
  | none, none, none, r => r

/-- Slot assigned under R77. -/
def assignSlot (e : Engine) (tc : Nat) : Option Nat :=
  if (slotsOf e tc).length < (ten e tc).qos.slotQuota then slotSearch e tc else none

/-! ## Block-table generation (R213) and the directory (R212) -/

/-- An entry of the slot that had LOC other than 0 changes: at most once a stride. -/
def bumpGen (slot : Nat) (e : Engine) : Engine :=
  if e.rq.tblBump.contains slot then e
  else { e with rq := { e.rq with
    tblgen := tset e.rq.tblgen slot ((tget 0 e.rq.tblgen slot + 1) % 2 ^ 16),
    tblBump := slot :: e.rq.tblBump } }

def dirAddr (e : Engine) (slot : Nat) : Nat :=
  (reg e rIDX_BTDIR_BASE).toNat / 4096 * 4096 + 128 * slot

/-- Mark every directory word of a slot as naming no page (DEDUCED, log entry 88). -/
def dirClear (slot : Nat) (e : Engine) : Engine :=
  wr (dirAddr e slot) (List.replicate 128 0xFF) e

/-- Place a request in a slot, with an empty block table. -/
def placeReq (slot : Nat) (r : Req) (e : Engine) : Engine := dirClear slot (setReq slot r e)

/-! ## The spill area (R78, R98) -/

def spillOn (e : Engine) : Bool := regB e rRQT_SPILL_CTRL 31
def spillAddr (e : Engine) (entry : Nat) : Nat :=
  (reg e rRQT_SPILL_BASE).toNat / 4096 * 4096 + 128 * entry

def spillFree (e : Engine) : Option Nat :=
  if spillOn e then
    firstFree (sortBy (fun a b => decide (a < b)) (e.rq.parked.map (·.entry))) 0
      (2 ^ regN e rRQT_SPILL_CTRL 4 0)
  else none

def spillWrite (p : Parked) (e : Engine) : Engine :=
  wr (spillAddr e p.entry) (recBytes p.req p.req.tc) e

/-- Enter a record at a spill entry with a PARK_CAUSE. -/
def parkAt (entry cause : Nat) (r : Req) (e : Engine) : Engine :=
  let r := { r with
    e := { r.e with st := .parked, parkCause := cause, theld := false },
    w := { r.w with kvReady := false, walk := none, table := [], pages := [], priv := false,
                    pauseDue := none, draft := Draft.empty } }
  let p : Parked := { entry := entry, seq := e.rq.parkSeq, req := r }
  count 3 11 1 (tcount r.tc 9 1 (spillWrite p
    { e with rq := { e.rq with parked := e.rq.parked ++ [p], parkSeq := e.rq.parkSeq + 1 } }))

def unpark (p : Parked) (e : Engine) : Engine :=
  { e with rq := { e.rq with parked := e.rq.parked.filter (fun x => x.entry != p.entry) } }

def modParked (entry : Nat) (f : Req → Req) (e : Engine) : Engine :=
  let e := { e with rq := { e.rq with
    parked := e.rq.parked.map (fun p => if p.entry = entry then { p with req := f p.req } else p) } }
  match e.rq.parked.find? (fun p => p.entry == entry) with
  | some p => spillWrite p e
  | none => e

/-- Change the request of a `uid`, in its slot or in the spill area. -/
def modUid (uid : Nat) (f : Req → Req) (e : Engine) : Engine :=
  match e.rq.slots.find? (fun p => p.2.w.uid == uid) with
  | some (s, _) => modReq s f e
  | none => match e.rq.parked.find? (fun p => p.req.w.uid == uid) with
    | some p => modParked p.entry f e
    | none => e

/-- Room under R78: the spill area has a free entry and the tenant is below PARK_QUOTA. -/
def parkRoom (e : Engine) (tc : Nat) : Option Nat :=
  if (parkedOf e tc).length < (ten e tc).qos.parkQuota then spillFree e else none

/-! ## Ends (R79, R81) -/

def endRec (st : RState) (reason seq : Nat) (hold : Option Stride) (now : Bool) (r : Req) : Req :=
  { r with e := { r.e with st := st, reason := reason, seq := seq },
           w := { r.w with walk := none, holdEnd := hold, freeNext := now, pauseDue := none, draft := r.w.draft.drop } }

def holdTo (e : Engine) : Option Stride := some (e.time.num + 64)

/-- A slot-holding request enters a terminal state and its 64-stride hold. -/
def endSlot (slot : Nat) (st : RState) (reason seq : Nat) (e : Engine) : Engine :=
  modReq slot (fun r => if terminal r.e.st then r else endRec st reason seq (holdTo e) false r) e

/-- A parked request enters a terminal state: its record keeps its spill entry through the hold. -/
def endParked (entry : Nat) (st : RState) (reason : Nat) (e : Engine) : Engine :=
  modParked entry (fun r => if terminal r.e.st then r else endRec st reason 0 (holdTo e) false r) e

/-- A request fails on an uncorrectable fault: REASON 0x09 (R79). -/
def failSlot (slot : Nat) (e : Engine) : Engine := endSlot slot .failed 9 0 e

/-! ## Adapter pins (R248) -/

/-- REFS of an adapter slot: requests pinned to it in every state other than FREE. -/
def aslotRefs (e : Engine) (s : Nat) : Nat :=
  (e.rq.slots.filter (fun p => p.2.w.aslot == some s)).length
    + (e.rq.parked.filter (fun p => p.req.w.aslot == some s)).length

/-- The LIVE slot of an adapter of a tenant. -/
def liveASlot (e : Engine) (tc model adapter : Nat) : Option (Nat × ASlot) :=
  e.aslots.find? (fun a => !a.2.retired && a.2.tc == tc && a.2.model == model && a.2.adapter == adapter)

/-- The slot a descriptor pins: none without an adapter; `none` inside when not present (R248). -/
def pinFor (e : Engine) (tc : Nat) (d : Desc) : Option (Option Nat × Nat) :=
  if d.adapter = 0xFFFF then some (none, 0xFFFF)
  else
    match liveASlot e tc d.model d.adapter with
    | some (s, a) => if d.adapterVer = 0xFFFF ∨ d.adapterVer = a.version then some (some s, a.version) else none
    | none => none

/-- EXPSET is present when it is 0 or names a set TARGET owns (R76, R255); sets are keyed by
model and number. -/
def xsetKey (model set : Nat) : Nat := model * 65536 + set
def xsetPresent (e : Engine) (tc model set : Nat) : Bool :=
  set == 0 || (match tget? e.xsets (xsetKey model set) with
    | some x => x.owner == some tc
    | none => false)

/-! ## Published regions (R421) -/

def regionKey (tc : Nat) (handle : U32) : Nat := tc * 2 ^ 32 + handle.toNat
def regionAt (e : Engine) (tc : Nat) (handle : U32) : Option Region := tget? e.regions (regionKey tc handle)
def handleOk (e : Engine) (tc kind : Nat) (h : U32) : Bool :=
  h == 0 || (match regionAt e tc h with
    | some r => r.kind == kind
    | none => false)

/-- The region a record field acts on: none for handle 0; an empty region under another kind. -/
def regionFor (e : Engine) (tc kind : Nat) (h : U32) : Option (Nat × Nat) :=
  if h = 0 then none
  else match regionAt e tc h with
    | some r => if r.kind = kind then some (r.addr, r.bytes) else some (0, 0)
    | none => some (0, 0)

/-! ## The rollout store (R266) -/

def roBase (e : Engine) (tc : Nat) : Nat := (reg e (rTRN_RO_BASE tc)).toNat / 4096 * 4096
def roSize (e : Engine) (tc : Nat) : Nat := 2 ^ regN e (rTRN_RO_BASE tc) 4 0
def roFree (e : Engine) (tc : Nat) : Nat := roSize e tc - (ten e tc).learn.store.length

def Rollout.bytes (tc : Nat) (r : Rollout) : List Byte :=
  le 4 r.rid.toNat ++ le 1 tc ++ le 1 r.model ++ le 1 (32 * r.seq + r.reason)
    ++ le 1 (128 * b2n r.lateSeen + 64 * b2n r.fbk + 32 * b2n r.repin + 16 * b2n r.invalid + r.st)
    ++ le 4 r.fseq ++ le 4 r.promptLen ++ le 4 r.gen ++ le 2 r.pverMin.toNat ++ le 2 r.pverLast.toNat
    ++ le 6 r.fstr.toNat ++ le 2 r.mb ++ le 8 r.promptAddr ++ le 2 r.adapter ++ le 2 r.pinVer
    ++ le 2 r.expset ++ zeros 2 ++ le 4 r.window ++ zeros 4 ++ le 8 r.stamp.toNat

def setRollout (tc entry : Nat) (r : Rollout) (e : Engine) : Engine :=
  wr (roBase e tc + 64 * entry) (r.bytes tc)
    (modLearn tc (fun l => { l with store := tset l.store entry r }) e)

/-- Free a store entry: its STATE becomes 0. -/
def freeRollout (tc entry : Nat) (e : Engine) : Engine :=
  match tget? (ten e tc).learn.store entry with
  | none => e
  | some r =>
    wr (roBase e tc + 64 * entry + 7) [BitVec.ofNat 8
        (128 * b2n r.lateSeen + 64 * b2n r.fbk + 32 * b2n r.repin + 16 * b2n r.invalid)]
      (modLearn tc (fun l => { l with store := tdel l.store entry }) e)

/-- Records of the current stride still WAITING, which a record of it may come before. -/
def endedNow (e : Engine) (tc : Nat) : Table Rollout :=
  (ten e tc).learn.store.filter (fun x => x.2.st == 1 && x.2.fstr == e.time.num)

/-- Enter a record: its entry, and FSEQ in the order of R42, in which the endings of one stride stand in the order of their
requests' admission, whichever is issued first (R266). -/
def enterRollout (tc entry : Nat) (x : Rollout) (e : Engine) : Engine :=
  let now := endedNow e tc
  let l := (ten e tc).learn
  let base := minOf (now.map (fun p => p.2.fseq)) l.fseq
  let es := sortBy (fun (a b : Nat) => decide (a < b)) (entry :: tkeys now)
  let rs := sortBy (fun (a b : Rollout) => decide (a.uid < b.uid)) (x :: now.map (·.2))
  let e := modLearn tc (fun l => { l with fseq := (l.fseq + 1) % 2 ^ 32 }) e
  ((es.zip rs).zipIdx).foldl (fun e p => setRollout tc p.1.1 { p.1.2 with fseq := (base + p.2) % 2 ^ 32 } e) e

/-- Write the record of a finished rollout, at the issue of its ending token (DEDUCED, log entry 74). -/
def rolloutEnd (r : Req) (pverLast : U16) (e : Engine) : Engine :=
  if !r.d.rollout || roBase e r.tc == 0 then e
  else
    let l := (ten e r.tc).learn
    match firstFree (tkeys l.store) 0 (roSize e r.tc) with
    | none => e
    | some i =>
      let x : Rollout := {
        rid := r.d.rid, model := r.d.model, seq := r.e.seq, reason := r.e.reason,
        lateSeen := r.e.lateSeen, fbk := r.e.fbk, repin := r.e.repin, invalid := false, st := 1,
        fseq := l.fseq, promptLen := r.d.promptLen, gen := r.e.gen, pverMin := r.e.pverMin,
        pverLast := pverLast, fstr := e.time.num, mb := 0, promptAddr := r.d.promptAddr,
        adapter := r.d.adapter, pinVer := r.e.pinVer, expset := r.d.expset, window := 0,
        stamp := e.time.stamp, uid := r.w.uid }
      enterRollout r.tc i x e

/-! ## Stop sequences (R86-R89) -/

/-- Length of the longest proper initial run of `s[0..k)` that also ends it (R89). -/
def failLen (s : List Nat) (k : Nat) : Nat :=
  ((List.range k).reverse.find? (fun j => s.take j == (s.take k).drop (k - j))).getD 0

/-- Fall back along the failure function, at most `fuel` times. -/
def stopBack (s : List Nat) (t : Nat) : Nat → Nat → Nat
  | 0, m => m
  | fuel + 1, m => if m > 0 ∧ s[m]? ≠ some t then stopBack s t fuel (failLen s m) else m

/-- One update of a sequence's match length; true when the sequence completes (R89). -/
def stopStep (s : List Nat) (t m : Nat) : Nat × Bool :=
  let m := stopBack s t 17 m
  let m := if s[m]? = some t then m + 1 else m
  if m = s.length then (failLen s m, true) else (m, false)

/-- Sequence `i` of a stop-set region, none when not in use (R88). -/
def stopSeq (e : Engine) (addr i : Nat) : Option (List Nat) :=
  let h := rdN e (addr + i) 1
  if h < 128 then none
  else some ((List.range (h % 16 + 1)).map (fun j => rdN e (addr + 64 + 64 * i + 4 * j) 3))

/-- Update STOPM with a token: the new STOPM and the lowest sequence that completes (R86, R89). -/
def stopUpdate (e : Engine) (r : Req) (t : Nat) : U32 × Option Nat :=
  match regionFor e r.tc 2 r.d.stopHandle with
  | none => (r.e.stopm, none)
  | some (_, 0) => (r.e.stopm, none)
  | some (addr, _) =>
    (List.range 8).foldl (fun acc i =>
      match stopSeq e addr i with
      | none => acc
      | some s =>
        let m := (acc.1 >>> (4 * i)).toNat % 16
        let (m', hit) := stopStep s t m
        let sm := (acc.1 &&& ~~~(0xF#32 <<< (4 * i))) ||| (BitVec.ofNat 32 m' <<< (4 * i))
        (sm, if hit ∧ acc.2.isNone then some i else acc.2)) (r.e.stopm, none)

/-- The stop condition an issued token meets: REASON and SEQ (R86). `r` has GEN counted. -/
def stopReason (r : Req) (hit : Option Nat) : Option (Nat × Nat) :=
  match hit with
  | some i =>
    if r.d.minTokens ≤ r.e.gen then some (2, i)
    else if r.e.gen = r.d.maxTokens then some (1, 0)
    else if ctxOf r = 1048576 then some (3, 0) else none
  | none =>
    if r.e.gen = r.d.maxTokens then some (1, 0)
    else if ctxOf r = 1048576 then some (3, 0) else none

end Sys2Proof.Machine
end

