-- ==== Sys2Proof/Machine/Kv.lean ====
section
/-! DEFINITION. KV blocks, block tables, the index, walks, eviction, tiers and Baton orders
(10_kv_prefix_and_pools.md R211-R232). -/

namespace Sys2Proof.Machine

def modKv (f : KvSt → KvSt) (e : Engine) : Engine := { e with kv := f e.kv }

/-! ## Pools (R211) -/

def nBlk (e : Engine) : Nat := regN e rIDX_KVPOOL 23 0
def nPages (e : Engine) : Nat := regN e rIDX_BTPG_N 20 0
def nTier (e : Engine) (tier : Nat) : Nat :=
  if tier = 2 then regN e rIDX_TIER 23 0 else regN e rIDX_TIER 55 32

def freeBlk (b : Nat) (e : Engine) : Engine := modKv (fun k => { k with used := k.used.filter (· != b) }) e

def freeTier (tier id : Nat) (e : Engine) : Engine :=
  modKv (fun k => if tier = 2 then { k with t2 := k.t2.filter (· != id) }
                  else { k with t3 := k.t3.filter (· != id) }) e

/-- Free the block or slot an entry in block-table format names. -/
def freeLoc (loc id : Nat) (e : Engine) : Engine :=
  if loc = 1 then freeBlk id e else if loc = 0 then e else freeTier loc id e

/-- Lowest free slot of a tier. -/
def allocTier (tier : Nat) (e : Engine) : Option (Nat × Engine) :=
  match firstFree (if tier = 2 then e.kv.t2 else e.kv.t3) 0 (nTier e tier) with
  | none => none
  | some i => some (i, modKv (fun k => if tier = 2 then { k with t2 := ninsert k.t2 i }
                                       else { k with t3 := ninsert k.t3 i }) e)

/-! ## Index nodes (R219, R220) -/

def nodeAt (e : Engine) (n : Nat) : Option Node := tget? e.kv.nodes n
def nodeAddr (e : Engine) (n : Nat) : Nat := (reg e rIDX_BASE).toNat / 4096 * 4096 + 64 * n

def optWord (o : Option Nat) : Nat := o.getD 0xFFFFFFFF

def Node.bytes (n : Node) : List Byte :=
  le 16 n.hash.toNat ++ le 4 (optWord n.parent) ++ le 4 (optWord n.fchild) ++ le 4 (optWord n.nsib)
    ++ le 4 (n.loc * 2 ^ 30 + b2n n.moving * 2 ^ 29 + b2n n.lost * 2 ^ 28 + n.id) ++ le 4 n.refs
    ++ le 2 n.depth ++ le 6 n.lastUse.toNat ++ le 6 (n.expiry.getD noDl).toNat ++ le 1 n.model ++ zeros 13

def setNode (n : Nat) (x : Node) (e : Engine) : Engine :=
  wr (nodeAddr e n) x.bytes (modKv (fun k => { k with nodes := tset k.nodes n x }) e)

def modNode (n : Nat) (f : Node → Node) (e : Engine) : Engine :=
  match nodeAt e n with
  | some x => setNode n (f x) e
  | none => e

/-- Free a node: its LOC word becomes 0 (DEDUCED, log entry 89). -/
def delNode (n : Nat) (e : Engine) : Engine :=
  wr (nodeAddr e n + 28) (zeros 4) (modKv (fun k => { k with nodes := tdel k.nodes n }) e)

/-- Link `n` as the first child of its parent (the order of siblings is the model's, DESIGN CHOICE, log entry 13). -/
def linkNode (n : Nat) (x : Node) (e : Engine) : Engine :=
  match x.parent with
  | none => setNode n x e
  | some p =>
    let first := match nodeAt e p with
      | some y => y.fchild
      | none => none
    modNode p (fun y => { y with fchild := some n }) (setNode n { x with nsib := first } e)

/-- Take `n` out of its parent's list of children. -/
def unlinkNode (n : Nat) (e : Engine) : Engine :=
  match nodeAt e n with
  | none => e
  | some x =>
    match x.parent with
    | none => e
    | some p =>
      match nodeAt e p with
      | none => e
      | some y =>
        if y.fchild = some n then setNode p { y with fchild := x.nsib } e
        else match e.kv.nodes.find? (fun s => s.2.nsib == some n) with
          | some (s, z) => setNode s { z with nsib := x.nsib } e
          | none => e

/-- Orders still outstanding that satisfy `p`. -/
def ordAny (e : Engine) (p : Order → Bool) : Bool := e.kv.orders.any (fun o => p o.2)

/-- Give the outstanding orders that `f` answers for another purpose. -/
def retag (f : OrdFor → Option OrdFor) (e : Engine) : Engine :=
  modKv (fun k => { k with orders := k.orders.map (fun o => (o.1, match f o.2.purpose with
    | some p => { o.2 with purpose := p }
    | none => o.2)) }) e

/-- The orders of a node that is removed are nobody's: their destinations are freed when they end, and the tier slot they
read, when the node no longer held it (R230, R232). -/
def nodeOrders (n : Nat) (x : Node) (e : Engine) : Engine :=
  retag (fun p => match p with
    | .moveNode m _ => if m = n then some (.gone false true) else none
    | .fetchNode m _ _ => if m = n then some (.gone (x.loc == 1) true) else none
    | _ => none) e

/-- Nodes of the subtree under the nodes of `acc`, at most `fuel` generations. -/
def subtree (ns : Table Node) : Nat → List Nat → List Nat
  | 0, acc => acc
  | fuel + 1, acc =>
    let more := (ns.filter (fun p => !acc.contains p.1 && (match p.2.parent with
      | some q => acc.contains q
      | none => false))).map (·.1)
    if more.isEmpty then acc else subtree ns fuel (acc ++ more)

/-- Remove a node with its subtree, freeing blocks and tier slots: the engine and how many went. -/
def removeTree (n : Nat) (e : Engine) : Engine × Nat :=
  let all := subtree e.kv.nodes e.kv.nodes.length [n]
  let e := unlinkNode n e
  let e := all.foldl (fun e m => match nodeAt e m with
    | some x => delNode m (nodeOrders m x (freeLoc x.loc x.id e))
    | none => e) e
  (e, all.length)

/-- A request drops its reference; a LOST node goes when REFS reaches 0 (R232). -/
def decRef (n : Nat) (e : Engine) : Engine :=
  match nodeAt e n with
  | none => e
  | some x =>
    let e := setNode n { x with refs := x.refs - 1, lastUse := e.time.num } e
    if x.refs ≤ 1 ∧ x.lost then (removeTree n e).1 else e

def incRef (n : Nat) (e : Engine) : Engine :=
  modNode n (fun x => { x with refs := x.refs + 1, lastUse := e.time.num }) e

/-- A walk or an adoption has taken a reference on a node whose MOVE is outstanding (R229). -/
def takenMark (n : Nat) (e : Engine) : Engine :=
  retag (fun p => if p = .moveNode n false then some (.moveNode n true) else none) e

/-! ## Eviction (R226) and allocation (R214) -/

def evictable (x : Node) : Bool := x.loc == 1 && x.refs == 0 && !x.moving && x.fchild.isNone

/-- The node R226 evicts next: smallest LASTUSE, ties to the lower number. -/
def evictNext (e : Engine) : Option Nat :=
  (e.kv.nodes.foldl (fun (b : Option (Nat × Stride)) p =>
    if evictable p.2 then match b with
      | some (_, u) => if p.2.lastUse.toNat < u.toNat then some (p.1, p.2.lastUse) else b
      | none => some (p.1, p.2.lastUse)
    else b) none).map (·.1)

def evictOne (e : Engine) : Option Engine :=
  match evictNext e with
  | none => none
  | some n => some (count 3 13 1 (bumpOpen rIDX_EVSTAT 63 32 1 (removeTree n e).1))

/-- Nodes that repeated eviction would free, starting from those of `acc`. -/
def evictSet (ns : Table Node) : Nat → List Nat → List Nat
  | 0, acc => acc
  | fuel + 1, acc =>
    let more := (ns.filter (fun p => !acc.contains p.1 && p.2.loc == 1 && p.2.refs == 0 && !p.2.moving
      && ns.all (fun c => c.2.parent != some p.1 || acc.contains c.1))).map (·.1)
    if more.isEmpty then acc else evictSet ns fuel (acc ++ more)

def evictCount (e : Engine) : Nat := (evictSet e.kv.nodes e.kv.nodes.length []).length

def freeBlks (e : Engine) : Nat := nBlk e - e.kv.used.length
def freePages (e : Engine) : Nat := nPages e - e.kv.pages.length

/-- Lowest free block, evicting when none is free. -/
def allocBlk (e : Engine) : Option (Nat × Engine) :=
  let take (i : Nat) (e : Engine) : Nat × Engine := (i, modKv (fun k => { k with used := ninsert k.used i }) e)
  match firstFree e.kv.used 0 (nBlk e) with
  | some i => some (take i e)
  | none => match evictOne e with
    | none => none
    | some e => match firstFree e.kv.used 0 (nBlk e) with
      | some i => some (take i e)
      | none => none

/-! ## Block tables (R212) -/

def pageAddr (e : Engine) (p : Nat) : Nat := (reg e rIDX_BTPG_BASE).toNat / 4096 * 4096 + 4096 * p

def entWord (x : BtEntry) : Nat := x.loc * 2 ^ 30 + x.id

def tableOf (e : Engine) (slot : Nat) : List BtEntry :=
  match reqAt e slot with
  | some r => r.w.table
  | none => []

/-- Take the page that entry `k` needs, when the table has none for it; every entry of a page taken is none. -/
def ensurePage (slot k : Nat) (e : Engine) : Option Engine :=
  match reqAt e slot with
  | none => none
  | some r =>
    if k / 1024 < r.w.pages.length then some e
    else match firstFree e.kv.pages 0 (nPages e) with
      | none => none
      | some p =>
        let e := modKv (fun x => { x with pages := ninsert x.pages p }) e
        let e := modWork slot (fun w => { w with pages := w.pages ++ [p] }) e
        some (wrN (dirAddr e slot + 4 * r.w.pages.length) 4 p (wr (pageAddr e p) (zeros 4096) e))

def noEntry : BtEntry := { loc := 0, id := 0, node := none, exp := none }

/-- Write entry `k` of a slot's table: an existing entry with LOC other than 0 that changes advances
TBLGEN, an appended one does not (R213). -/
def setEntry (slot k : Nat) (x : BtEntry) (e : Engine) : Engine :=
  match reqAt e slot with
  | none => e
  | some r =>
    let e := match r.w.table[k]? with
      | some old => if old.loc ≠ 0 ∧ (old.loc ≠ x.loc ∨ old.id ≠ x.id) then bumpGen slot e else e
      | none => e
    let tb := r.w.table ++ List.replicate (k - r.w.table.length) noEntry
    let tb := if k < tb.length then tb.set k x else tb ++ [x]
    let e := modWork slot (fun w => { w with table := tb }) e
    match r.w.pages[k / 1024]? with
    | some p => wrN (pageAddr e p + 4 * (k % 1024)) 4 (entWord x) e
    | none => e

/-- Append a tier-1 block, and its page, at the end of a slot's table. -/
def appendBlk (slot : Nat) (e : Engine) : Option Engine :=
  let k := (tableOf e slot).length
  match ensurePage slot k e with
  | none => none
  | some e1 => match allocBlk e1 with
    | none => none
    | some (b, e2) => some (setEntry slot k { loc := 1, id := b, node := none, exp := none } e2)

/-- Extend a slot's table to cover `n` blocks (R214). -/
def coverBlks (slot : Nat) : Nat → Engine → Engine
  | 0, e => e
  | fuel + 1, e => match appendBlk slot e with
    | some e => coverBlks slot fuel e
    | none => e

/-- Blocks and pages a table of `have_` entries in `pages` pages needs to reach `n` blocks. -/
def needBlks (have_ pages n : Nat) : Nat × Nat := (n - have_, ceilDiv n 1024 - pages)

/-! ## Orders (R227) -/

def nLanes (e : Engine) : Nat :=
  let n := regN e rIDX_BCTRL 5 0
  if n = 0 then 1 else if 32 < n then 32 else n

def orderBytes (num lane : Nat) (o : Order) : List Byte :=
  le 4 num ++ le 1 o.op ++ le 1 lane ++ le 1 o.model ++ [0] ++ le 4 o.src.toNat ++ le 4 o.dst.toNat
    ++ le 4 o.baton.toNat ++ le 4 o.peer.toNat ++ le 4 o.blk ++ zeros 4

def bqSpace (e : Engine) : Bool :=
  decide (((reg e rIDX_BQ_TAIL).setWidth 32 - (reg e rIDX_BQ_HEAD).setWidth 32 : U32).toNat
    < 2 ^ regN e rIDX_BQ_BASE 4 0)

/-- Write waiting orders while the ring has space. -/
def ordDrain : Nat → Engine → Engine
  | 0, e => e
  | fuel + 1, e =>
    match e.kv.ordWait with
    | [] => e
    | n :: ns =>
      if bqSpace e then
        let t := (reg e rIDX_BQ_TAIL).toNat
        let a := (reg e rIDX_BQ_BASE).toNat / 4096 * 4096 + 32 * (t % 2 ^ regN e rIDX_BQ_BASE 4 0)
        let e := modKv (fun k => { k with ordWait := ns }) e
        let e := match tget? e.kv.orders n with
          | some o => wr a (orderBytes n (n % nLanes e) o) e
          | none => e
        ordDrain fuel (setReg rIDX_BQ_TAIL (BitVec.ofNat 64 ((t + 1) % 2 ^ 32)) e)
      else e

def ordFlush (e : Engine) : Engine := ordDrain e.kv.ordWait.length e

/-- Issue an order under the next ORDER number (numbered from 0, DESIGN CHOICE, log entry 13). -/
def issueOrder (o : Order) (e : Engine) : Engine :=
  let n := e.kv.nextOrder
  ordFlush (tcount o.tc 11 1 (modKv (fun k => { k with
    orders := tset k.orders n o, ordWait := k.ordWait ++ [n], nextOrder := (n + 1) % 2 ^ 32 }) e))

def entU32 (loc id : Nat) : U32 := BitVec.ofNat 32 (loc * 2 ^ 30 + id)
def u32Loc (w : U32) : Nat := w.toNat / 2 ^ 30
def u32Id (w : U32) : Nat := w.toNat % 2 ^ 24

/-- A MOVE or FETCH order of a request's block. -/
def kvOrder (op : Nat) (why : OrdFor) (r : Req) (src dst : U32) : Order :=
  { op := op, purpose := why, model := r.d.model, src := src, dst := dst, baton := 0, peer := 0, blk := 0,
    tc := r.tc, rid := r.d.rid }

/-- A FETCH for a slot's request is outstanding. -/
def fetching (e : Engine) (slot : Nat) (r : Req) : Bool :=
  ordAny e (fun o => o.rid == r.d.rid && o.tc == r.tc && (match o.purpose with
    | .fetchNode _ s _ => s == slot
    | .fetchPriv s _ => s == slot
    | _ => false))

/-- Reads of a restored penalty window that are not yet answered (R305). -/
def winReads (e : Engine) (slot : Nat) : Bool :=
  e.port.tags.any (fun t => t.2.who == .window slot) || e.port.memWait.any (fun r => r.who == .window slot)

/-- KV is ready once the walk is over and no FETCH is outstanding (R224), nor a read of the window (R305)
(DEDUCED, log entry 73). -/
def kvReadyCheck (slot : Nat) (e : Engine) : Engine :=
  match reqAt e slot with
  | some r => if r.w.walk.isNone && !fetching e slot r && !winReads e slot && r.e.st == .admitted then
      modWork slot (fun w => { w with kvReady := true }) e else e
  | none => e

/-! ## Hash chains (R218) -/

/-- Fold eight groups of four tokens, from group `g`, into a chain hash. -/
def chainGo : Nat → Nat → List Nat → W4 → W4
  | 0, _, _, h => h
  | fuel + 1, g, t, h =>
    let w (i : Nat) : U32 := BitVec.ofNat 32 ((t[i]?.getD 0) % 2 ^ 24 + (4 * g + i) * 2 ^ 24)
    let y := brew h { a := w 0, b := w 1, c := w 2, d := w 3 }
    chainGo fuel (g + 1) (t.drop 4) (h.xor y)

def chain (h : W4) (tok : List Nat) : W4 := chainGo 8 0 tok h

def kvRoot (e : Engine) (r : Req) : W4 :=
  { a := (reg e (rIDX_TDOMAIN r.tc)).setWidth 32,
    b := BitVec.ofNat 32 (r.d.model + r.d.adapter * 256),
    c := BitVec.ofNat 32 (r.e.pinVer + r.d.expset * 65536), d := 0x4B560000#32 }

/-- Context tokens of block `k`. -/
def blkTokens (e : Engine) (r : Req) (k : Nat) : List Nat :=
  (List.range 32).map (fun i => rdN e (r.d.promptAddr + 4 * (32 * k + i)) 4)

/-- H(k) for k from `k`, at most `n` of them, up to the first block whose read fails; `trust` blocks are
not checked for read errors. -/
def chainList (e : Engine) (r : Req) (trust : Nat) : Nat → Nat → W4 → List W4
  | 0, _, _ => []
  | n + 1, k, h =>
    if trust ≤ k ∧ badRange e (r.d.promptAddr + 128 * k) 128 then []
    else
      let h' := chain h (blkTokens e r k)
      h' :: chainList e r trust n (k + 1) h'

/-- Nodes of a hash: same bucket, LOC other than 0 (R219). -/
def hashNodes (e : Engine) (h : W4) : Table Node :=
  let b := h.a.toNat % 2 ^ regN e rIDX_CTRL 4 0
  e.kv.nodes.filter (fun p => p.1 / 4 == b && p.2.hash == h.val && p.2.loc != 0)

/-- The node by which a hash is present: one that is not LOST (R219). -/
def presentNode (e : Engine) (h : W4) : Option (Nat × Node) := (hashNodes e h).find? (fun p => !p.2.lost)

/-- The node a hash names, the present one before a LOST one. -/
def hashNode (e : Engine) (h : W4) : Option (Nat × Node) :=
  match presentNode e h with
  | some x => some x
  | none => (hashNodes e h).head?

/-! ## Release (R225) -/

/-- The orders of a released request's private blocks are nobody's: the source is freed when the order ends, and the
destination of a MOVE, the destination of a FETCH being free already (R225). -/
def privOrders (slot : Nat) (e : Engine) : Engine :=
  retag (fun p => match p with
    | .movePriv s _ => if s = slot then some (.gone true true) else none
    | .fetchPriv s _ => if s = slot then some (.gone true false) else none
    | _ => none) e

def freePriv (slot k : Nat) (x : BtEntry) (e : Engine) : Engine :=
  if x.loc ≥ 2 ∧ ordAny e (fun o => o.purpose == .movePriv slot k && o.dst == entU32 x.loc x.id) then e
  else freeLoc x.loc x.id e

/-- Clear the first `n` entries of a table in the pages that hold them. -/
def clearEntries (ps : List Nat) (n : Nat) (e : Engine) : Engine :=
  (ps.zipIdx).foldl (fun e p => wr (pageAddr e p.1) (zeros (4 * min 1024 (n - 1024 * p.2))) e) e

/-- Drop every reference and free the private blocks, tier slots and pages of a slot's request. -/
def releaseKv (slot : Nat) (e : Engine) : Engine :=
  match reqAt e slot with
  | none => e
  | some r =>
    let e := if r.w.table.any (fun x => x.loc != 0) then bumpGen slot e else e
    let e := (r.w.table.zipIdx).foldl (fun e p => match p.1.node with
      | some n => decRef n e
      | none => freePriv slot p.2 p.1 e) e
    let e := if r.w.pages.isEmpty then e else dirClear slot (clearEntries r.w.pages r.w.table.length e)
    let e := modKv (fun k => { k with pages := k.pages.filter (fun p => !r.w.pages.contains p) }) e
    privOrders slot (modWork slot (fun w => { w with table := [], pages := [], priv := false }) e)

/-! ## Completed orders (R228-R232) -/

/-- Free a place of an order, a tier slot only when no FETCH still reads it and no MOVE writes it. -/
def freePlace (w : U32) (e : Engine) : Engine :=
  if u32Loc w ≠ 1 && ordAny e (fun p => (p.src == w && p.op == 2) || (p.dst == w && p.op == 1)) then e
  else freeLoc (u32Loc w) (u32Id w) e

/-- An order ends whose node or table entry is no more. -/
def goneDone (src dst : Bool) (o : Order) (e : Engine) : Engine :=
  let e := if src then freePlace o.src e else e
  if dst then freePlace o.dst e else e

/-- A MOVE is outstanding in the subtree of a node. -/
def movingUnder (ns : Table Node) (n : Nat) : Bool :=
  (subtree ns ns.length [n]).any (fun m => match tget? ns m with
    | some x => x.moving
    | none => false)

/-- Nodes that wait for the MOVEs of their subtrees are removed when none is left, unless a request holds them again
(R220, R265). -/
def dropSweep (e : Engine) : Engine :=
  let due := (e.kv.nodes.filter (fun p => p.2.dropOnMove && !movingUnder e.kv.nodes p.1)).map (·.1)
  due.foldl (fun e n => match nodeAt e n with
    | some x => if x.refs = 0 then (removeTree n e).1 else modNode n (fun x => { x with dropOnMove := false }) e
    | none => e) e

/-- A MOVE of an indexed block ends (R229); `taken` as its order says. MOVING is 0 when no other MOVE of the block is
outstanding, and a node that waits for its MOVE to be removed goes then (R265). -/
def moveNodeDone (n : Nat) (taken : Bool) (o : Order) (fail : Bool) (e : Engine) : Engine :=
  let tier := u32Loc o.dst
  let id := u32Id o.dst
  let more := ordAny e (fun p => p.purpose == .moveNode n true || p.purpose == .moveNode n false)
  match nodeAt e n with
  | none => freeTier tier id e
  | some x =>
    let e := if fail ∨ taken then setNode n { x with moving := more } (freeTier tier id e)
      else setNode n { x with moving := more, loc := tier, id := id } (freeBlk x.id e)
    dropSweep e

/-- A MOVE of a private block ends. -/
def movePrivDone (slot k : Nat) (o : Order) (fail : Bool) (e : Engine) : Engine :=
  let tier := u32Loc o.dst
  let id := u32Id o.dst
  let e := freeBlk (u32Id o.src) e
  let mine := match reqAt e slot with
    | some r => r.tc == o.tc && r.d.rid == o.rid && (match r.w.table[k]? with
      | some x => x.loc == tier && x.id == id && x.node.isNone
      | none => false)
    | none => false
  if mine then (if fail then setEntry slot k noEntry (freeTier tier id e) else e)
  else freePlace o.dst e

/-- Whether the slot's entry `k` still holds `blk` for the order's request. -/
def entryIs (e : Engine) (slot k blk : Nat) (o : Order) : Bool :=
  match reqAt e slot with
  | some r => r.tc == o.tc && r.d.rid == o.rid && (match r.w.table[k]? with
    | some x => x.loc == 1 && x.id == blk
    | none => false)
  | none => false

/-- A FETCH of an indexed block ends; the order has left the table of orders. The node of one that succeeds has no EXPIRY
(DESIGN CHOICE, log entry 109). -/
def fetchNodeDone (n slot k : Nat) (o : Order) (fail : Bool) (e : Engine) : Engine :=
  let blk := u32Id o.dst
  let tier := u32Loc o.src
  let tid := u32Id o.src
  let more := ordAny e (fun p => p.src == o.src && p.op == 2)
  match nodeAt e n with
  | none => kvReadyCheck slot (freeBlk blk (if more then e else freeTier tier tid e))
  | some x =>
    let home := x.loc == 1
    if fail then
      let e := freeBlk blk (setNode n { x with lost := true } e)
      let e := if home && !more then freeTier tier tid e else e
      let hit := e.rq.slots.filter (fun p => p.2.w.table.any (fun t => t.node == some n && t.walked))
      let e := hit.foldl (fun e p => failSlot p.1 e) e
      if x.refs = 0 then (removeTree n e).1 else e
    else if home then
      let e := if entryIs e slot k blk o then
          setEntry slot k { loc := 1, id := x.id, node := some n, exp := none, walked := true } e else e
      kvReadyCheck slot (freeBlk blk (if more then e else freeTier tier tid e))
    else
      let e := setNode n { x with loc := 1, id := blk, expiry := none } e
      kvReadyCheck slot (if more then e else freeTier tier tid e)

/-- A FETCH of a private block ends. -/
def fetchPrivDone (slot k : Nat) (o : Order) (fail : Bool) (e : Engine) : Engine :=
  let blk := u32Id o.dst
  let e := freePlace o.src e
  let mine := entryIs e slot k blk o
  if fail then
    let e := freeBlk blk e
    if mine then failSlot slot (setEntry slot k noEntry e) else e
  else if mine then kvReadyCheck slot e else freeBlk blk e

/-! ## Walks (R223, R224, R231) -/

/-- Halving-stride search over presence: the count and the buckets probed. -/
def gallop (present : Nat → Bool) (n : Nat) : Nat → Nat × Nat → Nat × Nat
  | 0, acc => acc
  | i + 1, (lo, probes) =>
    let s := 2 ^ i
    if lo + s ≤ n then
      gallop present n i (if present (lo + s - 1) then lo + s else lo, probes + 1)
    else gallop present n i (lo, probes)

/-- Nodes of the first `lo` hashes up to the first LOST one. -/
def walkNodes (e : Engine) : List W4 → List Nat
  | [] => []
  | h :: hs => match hashNode e h with
    | some (n, x) => if x.lost then [] else n :: walkNodes e hs
    | none => []

/-- Write block `k` of a walk from node `n`, whose reference is taken; none when a page or block cannot
be had. A request with FBK 1 is given its blocks too (DESIGN CHOICE, log entry 110). -/
def walkTake (slot k n : Nat) (r : Req) (e : Engine) : Option Engine :=
  match nodeAt e n, ensurePage slot k e with
  | some x, some e1 =>
    if x.loc = 1 then some (setEntry slot k { loc := 1, id := x.id, node := some n, exp := none, walked := true } e1)
    else
      match allocBlk e1 with
      | none => none
      | some (b, e2) =>
        let e3 := setEntry slot k { loc := 1, id := b, node := some n, exp := none, walked := true } e2
        some (issueOrder (kvOrder 2 (.fetchNode n slot k) r (entU32 x.loc x.id) (entU32 1 b)) e3)
  | _, _ => none

/-- Take the nodes of a walk in order: the engine, blocks taken, whether it was cut short. Every
reference is taken before any block is allocated, and the blocks after a cut give theirs back with the
LASTUSE they had in `old` (DEDUCED, log entry 14). -/
def walkGo (slot : Nat) (r : Req) (old : Table Node) : List Nat → Nat → Engine → Engine × Nat × Bool
  | [], k, e => (e, k, false)
  | n :: ns, k, e => match walkTake slot k n r e with
    | some e => walkGo slot r old ns (k + 1) e
    | none =>
      ((n :: ns).foldl (fun e m => modNode m (fun x => { x with
        refs := x.refs - 1, lastUse := ((tget? old m).map (·.lastUse)).getD x.lastUse }) e) e, k, true)

/-- After a resume's L blocks, fetch the private tier entries that follow without a gap (R231). -/
def privGo (slot : Nat) (r : Req) (old : List BtEntry) : Nat → Nat → Engine → Engine × Nat
  | 0, k, e => (e, k)
  | fuel + 1, k, e =>
    match old[k]? with
    | some x =>
      if x.node.isNone ∧ x.loc ≥ 2 then
        match ensurePage slot k e with
        | none => (e, k)
        | some e1 => match allocBlk e1 with
          | none => (e, k)
          | some (b, e2) =>
            let e3 := setEntry slot k { loc := 1, id := b, node := none, exp := none } e2
            privGo slot r old fuel (k + 1)
              (issueOrder (kvOrder 2 (.fetchPriv slot k) r (entU32 x.loc x.id) (entU32 1 b)) e3)
      else (e, k)
    | none => (e, k)

/-- The effect of a walk of `n` blocks (R223, R224): references, entries, FETCH orders, KVPOS. A failed read of the
context array is reported for MEM(TC mod 4) (DESIGN CHOICE, log entry 111). Private blocks that a resume fetches back stay
private (R221). -/
def walkApply (slot n : Nat) (resume : Bool) (e : Engine) : Engine :=
  match reqAt e slot with
  | none => e
  | some r =>
    let n := if regB e rIDX_CTRL 31 && r.d.promptAddr != 0 then n else 0
    let hs := chainList e r 0 n 0 (kvRoot e r)
    let e := if hs.length < n then
        fault .memError (BitVec.ofNat 8 r.tc) .none (hTile (r.tc % 4) 7 (r.tc % 4)) (hTile (r.tc % 4) 7 (r.tc % 4))
          (BitVec.ofNat 64 (r.d.promptAddr + 128 * hs.length)) e
      else e
    let pres (i : Nat) : Bool := match hs[i]? with
      | some h => (match hashNode e h with
        | some (_, x) => !x.lost
        | none => false)
      | none => false
    let (lo, probes) := gallop pres hs.length 15 (0, 0)
    let e := bumpOpen rIDX_STAT 31 0 probes e
    let nodes := walkNodes e (hs.take lo)
    let old := r.w.table
    let (e, l, cut) := walkGo slot r e.kv.nodes nodes 0 (nodes.foldl (fun e n => incRef n e) e)
    let e := (nodes.take l).foldl (fun e n => takenMark n e) e
    let e := if cut then bumpOpen rIDX_FULL 63 32 1 e else e
    let (e, kEnd) := if resume then privGo slot r old old.length l e else (e, l)
    let keep (k : Nat) : Bool := decide (l ≤ k ∧ k < kEnd)
    let e := if resume then (old.zipIdx).foldl (fun e p =>
        if p.1.node.isNone ∧ p.1.loc ≥ 2 ∧ !keep p.2 then freePriv slot p.2 p.1 e else e) e else e
    let e := if kEnd < (tableOf e slot).length then
        ((tableOf e slot).zipIdx).foldl (fun e p =>
          if kEnd ≤ p.2 ∧ p.1.loc ≠ 0 then setEntry slot p.2 noEntry e else e) e else e
    let e := modWork slot (fun w => { w with
      table := w.table.take kEnd, prefixHit := l, walk := none, priv := resume && w.priv && decide (l < kEnd) }) e
    let pos := if resume then min r.w.kvposPause (32 * kEnd) else 32 * l
    let e := modEng slot (fun x => { x with kvpos := pos }) e
    let e := bumpOpen rIDX_STAT 63 32 l (count 3 12 l (tcount r.tc 10 l e))
    kvReadyCheck slot e

/-- Reads of a slot's context array that are not yet answered: its walk is not over before they are (R223). -/
def walkReads (e : Engine) (slot : Nat) : Bool :=
  e.port.tags.any (fun t => t.2.who == .walk slot) || e.port.memWait.any (fun r => r.who == .walk slot)

/-- The reads that an earlier walk or request of a slot waited for are nobody's. -/
def readsForget (who : MemWho) (e : Engine) : Engine :=
  let f (r : MemReq) : MemReq := if r.who = who then { r with who := .none } else r
  { e with port := { e.port with tags := e.port.tags.map (fun t => (t.1, f t.2)), memWait := e.port.memWait.map f } }

/-- Tokens of a penalty window: the last min(GEN, 2,048) of the context array (R217, R305). -/
def winLen (r : Req) : Nat := min r.e.gen 2048

/-- The reads that rebuild a restored request's penalty window, once it has a slot (R305). -/
def winStart (slot : Nat) (e : Engine) : Engine :=
  match reqAt e slot with
  | some r =>
    let e := readsForget (.window slot) e
    if r.w.winDue then
      memRdIssue (slot / 16384) (r.d.promptAddr + 4 * (ctxOf r - winLen r)) (4 * winLen r) (.window slot) e
    else e
  | none => e

/-- One token of the context array as read; of a line whose read failed it is a free value (DESIGN CHOICE, log entry 73). -/
def winTok (a : Nat) (e : Engine) : U24 × Engine :=
  if badRange e a 4 then
    let (v, e) := takeFree e
    (v.setWidth 24, e)
  else (BitVec.ofNat 24 (rdN e a 3), e)

/-- The penalty window of a restored request, from its context array, once (R305). -/
def rebuildWin (slot : Nat) (e : Engine) : Engine :=
  match reqAt e slot with
  | some r =>
    if !r.w.winDue then e
    else
      let n := winLen r
      let (ts, e) := (List.range n).foldl (fun (x : List U24 × Engine) i =>
        let (t, e) := winTok (r.d.promptAddr + 4 * (ctxOf r - n + i)) x.2
        (x.1 ++ [t], e)) ([], e)
      modWork slot (fun w => { w with window := ts, winDue := false }) e
  | none => e

/-- Start a walk at the current stride: one with nothing to reuse has its effect at once (R222, R224)
(DEDUCED, log entry 77). It reads the context array through the memory port of the slot's quadrant
(DESIGN CHOICE, log entry 111). -/
def startWalk (slot n : Nat) (resume : Bool) (ord : List Nat) (e : Engine) : Engine :=
  let e := winStart slot e
  if n = 0 ∨ !regB e rIDX_CTRL 31 then walkApply slot n resume e
  else
    let d := max 1 (nsToStr (2000 + 4 * n) e.time.nsps)
    let e := readsForget (.walk slot) e
    let e := modWork slot (fun w => { w with
      walk := some { eff := e.time.num + BitVec.ofNat 48 d, n := n, resume := resume, due := false },
      waitOrd := ord, kvReady := false }) e
    match reqAt e slot with
    | some r => if r.d.promptAddr = 0 then e else memRdIssue (slot / 16384) r.d.promptAddr (128 * n) (.walk slot) e
    | none => e

/-! ## Insertion and adoption (R221) -/

/-- Lowest free node of a bucket. -/
def freeNode (e : Engine) (b : Nat) : Option Nat := firstFree (tkeys (e.kv.nodes.filter (fun p => p.1 / 4 == b)))
  (4 * b) (4 * b + 4)

def setPrivate (slot : Nat) (e : Engine) : Engine := modWork slot (fun w => { w with priv := true }) e

/-- Enter block `k` of a request, whose hash is `h`, or adopt the node of that hash. -/
def insertBlk (slot k : Nat) (h : W4) (parent : Option Nat) (model : Nat) (e : Engine) : Engine :=
  match (tableOf e slot)[k]? with
  | none => e
  | some x =>
    match presentNode e h with
    | some (n, y) =>
      if y.loc = 1 then
        setEntry slot k { loc := 1, id := y.id, node := some n, exp := none }
          (freeBlk x.id (takenMark n (incRef n e)))
      else setPrivate slot e
    | none =>
      let b := h.a.toNat % 2 ^ regN e rIDX_CTRL 4 0
      match freeNode e b with
      | none => setPrivate slot e
      | some n =>
        let y : Node := {
          hash := h.val, parent := parent, fchild := none, nsib := none, loc := 1, moving := false,
          lost := false, id := x.id, refs := 1, depth := k, lastUse := e.time.num, expiry := none,
          model := model, dropOnMove := false }
        setEntry slot k { x with node := some n } (linkNode n y e)

/-- Enter a request's completed blocks in order of `k` (R221). -/
def insertGo (slot : Nat) (r : Req) : Nat → Nat → List W4 → Engine → Engine
  | 0, _, _, e => e
  | fuel + 1, k, hs, e =>
    match reqAt e slot, hs with
    | some q, h :: hs' =>
      if q.w.priv then e
      else match q.w.table[k]? with
        | none => e
        | some x =>
          if x.node.isSome ∨ x.loc ≠ 1 then insertGo slot r fuel (k + 1) hs' e
          else if k = 0 then insertGo slot r fuel 1 hs' (insertBlk slot 0 h none r.d.model e)
          else
            let prev := match q.w.table[k - 1]? with
              | some p => p.node
              | none => none
            insertGo slot r fuel (k + 1) hs' (insertBlk slot k h prev r.d.model e)
    | _, _ => e

/-- Leading entries of a table that name the nodes of the hashes. -/
def chained (e : Engine) : List BtEntry → List W4 → Nat
  | x :: xs, h :: hs => match x.node with
    | some n => match nodeAt e n with
      | some y => if y.hash = h.val then chained e xs hs + 1 else 0
      | none => 0
    | none => 0
  | _, _ => 0

/-- Step P3 for one request: insertions and adoptions of its complete blocks. A re-pinned request enters none (R252). -/
def insertReq (slot : Nat) (e : Engine) : Engine :=
  match reqAt e slot with
  | none => e
  | some r =>
    if !regB e rIDX_CTRL 31 || r.e.fbk || r.d.promptAddr == 0 || r.w.priv || r.e.repin then e
    else
      let full := min (r.e.kvpos / 32) r.w.table.length
      let had := (r.w.table.takeWhile (fun x => x.node.isSome)).length
      if full ≤ had then e
      else
        let hs := chainList e r had full 0 (kvRoot e r)
        let ok := chained e r.w.table hs
        if ok < had then e
        else
          let e := insertGo slot r full had (hs.drop had) e
          if hs.length < full then
            setPrivate slot (fault .memError (BitVec.ofNat 8 r.tc) .none (hTile (r.tc % 4) 7 (r.tc % 4))
              (hTile (r.tc % 4) 7 (r.tc % 4)) (BitVec.ofNat 64 (r.d.promptAddr + 128 * hs.length)) e)
          else e

/-! ## Pause treatment (R229) and TTL expiry (R230) -/

def laterExp (old : Option Stride) (x : Stride) : Option Stride :=
  match old with
  | some o => if ahead o x then some o else some x
  | none => some x

/-- Treat one table entry of a paused request. -/
def pauseEntry (slot k ttl tier : Nat) (r : Req) (x : BtEntry) (e : Engine) : Engine :=
  let exp := e.time.num + BitVec.ofNat 48 ttl
  match x.node with
  | some n =>
    match nodeAt e n with
    | none => setEntry slot k noEntry e
    | some y =>
      if y.refs > 1 then setEntry slot k noEntry (decRef n e)
      else match allocTier tier e with
        | some (t, e1) =>
          let e2 := modNode n (fun z => { z with moving := true, expiry := laterExp z.expiry exp }) (decRef n e1)
          issueOrder (kvOrder 1 (.moveNode n false) r (entU32 1 y.id) (entU32 tier t)) (setEntry slot k noEntry e2)
        | none => bumpOpen rIDX_FULL 31 0 1 (setEntry slot k noEntry (decRef n e))
  | none =>
    if x.loc ≠ 1 then e
    else match allocTier tier e with
      | some (t, e1) =>
        issueOrder (kvOrder 1 (.movePriv slot k) r (entU32 1 x.id) (entU32 tier t))
          (setEntry slot k { loc := tier, id := t, node := none, exp := some exp } e1)
      | none => bumpOpen rIDX_FULL 31 0 1 (setEntry slot k noEntry (freeBlk x.id e))

/-- The pause treatment of a slot's request, if it is still due. -/
def pauseTreat (slot : Nat) (e : Engine) : Engine :=
  match reqAt e slot with
  | some r =>
    match r.w.pauseDue, r.e.st with
    | some (ttl, tier), .paused =>
      let e := (r.w.table.zipIdx).foldl (fun e p => pauseEntry slot p.2 ttl tier r p.1 e) e
      modWork slot (fun w => { w with pauseDue := none, kvposPause := r.e.kvpos,
                                      draft := w.draft.drop }) e
    | _, _ => e
  | none => e

/-- Clear the private entries of a paused request that have expired at stride `at_`. -/
def ttlPriv (at_ : Stride) (slot : Nat) (r : Req) (e : Engine) : Engine :=
  (r.w.table.zipIdx).foldl (fun e p => match p.1.exp with
    | some x => if reached x at_ ∧ p.1.node.isNone then
        setEntry slot p.2 noEntry (freePriv slot p.2 p.1 e) else e
    | none => e) e

/-- The TTL scan of stride `at_` (R36, R230). -/
def ttlScan (at_ : Stride) (e : Engine) : Engine :=
  let due := (e.kv.nodes.filter (fun p => decide (p.2.loc ≥ 2) && p.2.refs == 0 && (match p.2.expiry with
    | some x => reached x at_
    | none => false))).map (·.1)
  let e := due.foldl (fun e n => match nodeAt e n with
    | some _ =>
      let (e, c) := removeTree n e
      bumpOpen rIDX_EVSTAT 31 0 c e
    | none => e) e
  (e.rq.slots.filter (fun p => p.2.e.st == .paused)).foldl (fun e p => ttlPriv at_ p.1 p.2 e) e

/-! ## Index enable (R239) -/

/-- Clear the index table and free what its nodes held. -/
def idxClear (e : Engine) : Engine :=
  let e := e.kv.nodes.foldl (fun e p => freeLoc p.2.loc p.2.id e) e
  let a := nodeAddr e 0
  let n := 2 ^ regN e rIDX_CTRL 4 0 * 256
  { e with mem := e.mem.filter (fun c => decide (c.1 < a ∨ a + n ≤ c.1)), kv := { e.kv with nodes := [] } }

/-- CACHED of IDX_FREE: tier-1 indexed blocks with REFS 0. -/
def cachedBlks (e : Engine) : Nat := (e.kv.nodes.filter (fun p => p.2.loc == 1 && p.2.refs == 0)).length

end Sys2Proof.Machine
end

