-- ==== Sys2Proof/Machine/Arith.lean ====
section
/-! DEFINITION. The arithmetic of the sampler (07_sampler.md R142-R155) and of the Brew distributions
(R202-R205): fp32 operations by exact values rounded once, the exponent rule, logarithms, the Gumbel key.
-/

namespace Sys2Proof.Machine

/-! ## fp32 by exact values -/

def fSign (x : U32) : Bool := x.getLsbD 31
def fExp (x : U32) : Nat := (x >>> 23).toNat % 256
def fMan (x : U32) : Nat := x.toNat % 2 ^ 23
def fNan (x : U32) : Bool := fExp x == 255 && fMan x != 0
def fInf (x : U32) : Bool := fExp x == 255 && fMan x == 0
def fZero (x : U32) : Bool := x.toNat % 2 ^ 31 == 0
def fNeg (x : U32) : U32 := x ^^^ 0x80000000#32
def qNaN : U32 := 0x7FC00000#32
def negInf : U32 := 0xFF800000#32

/-- Magnitude of a finite value as significand and exponent. -/
def fMag (x : U32) : Nat × Int :=
  if fExp x = 0 then (fMan x, -149) else (fMan x + 2 ^ 23, (fExp x : Int) - 150)

/-- `n * 2^e` with `e` of either sign, as a quotient of naturals. -/
def scale2 (n : Nat) (e : Int) : Nat × Nat := if 0 ≤ e then (n * 2 ^ e.toNat, 1) else (n, 2 ^ (-e).toNat)

/-- Quotient rounded to the nearest integer, ties to even. -/
def rneQuot (n d : Nat) : Nat :=
  let q := n / d
  let r := n % d
  if 2 * r < d then q else if d < 2 * r then q + 1 else if q % 2 = 0 then q else q + 1

/-- The same for a signed numerator. -/
def rneQuotI (n : Int) (d : Nat) : Int :=
  if 0 ≤ n then (rneQuot n.toNat d : Int) else -((rneQuot (-n).toNat d : Nat) : Int)

/-- Floor of log2 of a quotient `n / d`, both positive. -/
def log2Quot (n d : Nat) : Int :=
  let g : Int := (n.log2 : Int) - d.log2
  -- n / d lies in (2^(g-1), 2^(g+1))
  let (a, b) := scale2 d g
  if a ≤ n * b then g else g - 1

/-- The fp32 value nearest to `n / d`, ties to even, with the sign given. -/
def fRound (neg : Bool) (n d : Nat) : U32 :=
  let s : Nat := if neg then 2 ^ 31 else 0
  if n = 0 then BitVec.ofNat 32 s
  else
    let k := max (log2Quot n d - 23) (-149)
    let (a, b) := scale2 1 (-k)
    let q := rneQuot (n * a) (d * b)
    let (q, k) := if q = 2 ^ 24 then (2 ^ 23, k + 1) else (q, k)
    if q < 2 ^ 23 then BitVec.ofNat 32 (s + q)
    else if 104 < k then BitVec.ofNat 32 (s + 255 * 2 ^ 23)
    else BitVec.ofNat 32 (s + (k + 150).toNat * 2 ^ 23 + (q - 2 ^ 23))

/-- A finite value as a signed significand and exponent. -/
def fInt (x : U32) : Int × Int :=
  let (m, e) := fMag x
  (if fSign x then -(m : Int) else m, e)

def fAdd (x y : U32) : U32 :=
  if fNan x || fNan y then qNaN
  else if fInf x then (if fInf y && fSign x != fSign y then qNaN else x)
  else if fInf y then y
  else
    let (a, ea) := fInt x
    let (b, eb) := fInt y
    let e := min ea eb
    let s := a * 2 ^ (ea - e).toNat + b * 2 ^ (eb - e).toNat
    if s = 0 then (if fSign x && fSign y then 0x80000000#32 else 0)
    else
      let (n, d) := scale2 s.natAbs e
      fRound (decide (s < 0)) n d

def fSub (x y : U32) : U32 := if fNan y then qNaN else fAdd x (fNeg y)

def fMul (x y : U32) : U32 :=
  let neg := fSign x != fSign y
  if fNan x || fNan y then qNaN
  else if fInf x || fInf y then
    (if fZero x || fZero y then qNaN else if neg then negInf else 0x7F800000#32)
  else
    let (a, ea) := fMag x
    let (b, eb) := fMag y
    let (n, d) := scale2 (a * b) (ea + eb)
    fRound neg n d

def fDiv (x y : U32) : U32 :=
  let neg := fSign x != fSign y
  if fNan x || fNan y then qNaN
  else if fInf x then (if fInf y then qNaN else if neg then negInf else 0x7F800000#32)
  else if fInf y then (if neg then 0x80000000#32 else 0)
  else if fZero y then (if fZero x then qNaN else if neg then negInf else 0x7F800000#32)
  else
    let (a, ea) := fMag x
    let (b, eb) := fMag y
    let (n, d) := scale2 a (ea - eb)
    fRound neg n (d * b)

/-- A natural number as fp32. -/
def fOfNat (n : Nat) : U32 := fRound false n 1

/-- Order of fp32 values as integers; -0 and +0 are equal. -/
def fOrd (x : U32) : Int :=
  let m : Int := (x.toNat % 2 ^ 31 : Nat)
  if fSign x then -m else m

/-! ## Logit formats (R142) -/

def bf16To (x : U16) : U32 := x.setWidth 32 <<< 16

/-- A small float of `eb` exponent and `mb` significand bits with a bias, widened exactly. -/
def smallTo (eb mb bias : Nat) (x : Nat) : U32 :=
  let s := x / 2 ^ (eb + mb) % 2 == 1
  let ex := x / 2 ^ mb % 2 ^ eb
  let m := x % 2 ^ mb
  let (n, e) : Nat × Int := if ex = 0 then (m, 1 - (bias : Int) - mb) else (m + 2 ^ mb, (ex : Int) - bias - mb)
  let (a, b) := scale2 n e
  fRound s a b

def fp16To (x : Nat) : U32 :=
  if x / 2 ^ 10 % 32 = 31 then
    (if x % 2 ^ 10 = 0 then (if x / 2 ^ 15 % 2 = 1 then negInf else 0x7F800000#32) else qNaN)
  else smallTo 5 10 15 x

def e4m3To (x : Nat) : U32 := if x % 128 = 127 then qNaN else smallTo 4 3 7 x

def e5m2To (x : Nat) : U32 :=
  if x / 4 % 32 = 31 then (if x % 4 = 0 then (if x / 128 % 2 = 1 then negInf else 0x7F800000#32) else qNaN)
  else smallTo 5 2 15 x

/-- Bytes of one logit of a format (R136). -/
def fmtBytes (fmt : Nat) : Nat := if fmt = 0 then 4 else if fmt = 1 ∨ fmt = 2 then 2 else 1

/-- Convert a raw logit; -0 becomes +0 (R142). -/
def logitTo (fmt raw : Nat) : U32 :=
  let x := match fmt with
    | 0 => BitVec.ofNat 32 raw
    | 1 => bf16To (BitVec.ofNat 16 raw)
    | 2 => fp16To raw
    | 3 => e4m3To raw
    | _ => e5m2To raw
  if x = 0x80000000#32 then 0 else x

/-! ## Binary logarithm -/

/-- Fraction bits of log2 of a value in [1, 2) scaled by 2^p, from a lower and an upper bound, by repeated
squaring; none when the bounds do not decide a bit. -/
def logBits (p : Nat) : Nat → Nat → Nat → Nat → Option Nat
  | 0, _, _, acc => some acc
  | k + 1, lo, hi, acc =>
    let l := lo * lo / 2 ^ p
    let h := hi * hi / 2 ^ p + 1
    if 2 ^ (p + 1) ≤ l then logBits p k (l / 2) (h / 2 + 1) (2 * acc + 1)
    else if h < 2 ^ (p + 1) then logBits p k l h (2 * acc)
    else none

/-- The same by exact squaring of `n / 2^s`, `2^s <= n < 2^(s+1)`. -/
def logExact : Nat → Nat → Nat → Nat → Nat
  | 0, _, _, acc => acc
  | k + 1, n, s, acc =>
    if 2 ^ (2 * s + 1) ≤ n * n then logExact k (n * n) (2 * s + 1) (2 * acc + 1)
    else logExact k (n * n) (2 * s) (2 * acc)

/-- floor(2^k * log2(n / 2^s)) for `2^s <= n < 2^(s+1)`. -/
def logFloor (k n s : Nat) : Nat :=
  let x := n * 2 ^ (256 - s)
  if n = 2 ^ s then 0
  else match logBits 256 k x x 0 with
    | some r => r
    | none => logExact k n s 0

/-- LG(m): the integer nearest to log2(m * 2^-63) * 2^40 (R150). -/
def LG (m : Nat) : Nat := (logFloor 41 m 63 + 1) / 2

/-- Search `[lo, lo + 2^n)` for the least M with log2((2M + 1) / 2^40) * 2^24 >= f. -/
def exp2Search (f : Nat) : Nat → Nat → Nat
  | 0, lo => lo
  | n + 1, lo =>
    let mid := lo + 2 ^ n
    -- the half-integer below `mid` lies under 2^(f / 2^24)
    if logFloor 24 (2 * mid - 1) 40 < f then exp2Search f n mid else exp2Search f n lo

/-- EXP2M(f): the integer nearest to 2^(f / 2^24) * 2^39 (R148). -/
def EXP2M (f : Nat) : Nat := if f = 0 then 2 ^ 39 else exp2Search f 39 (2 ^ 39)

/-- L2Q(s): log2 in Q.40 of a positive accumulator in units of 2^unit (R150). -/
def L2Q (s : Nat) (unit : Int) : Int :=
  let b := s.log2
  let m := if 63 ≤ b then s / 2 ^ (b - 63) else s * 2 ^ (63 - b)
  ((b : Int) + unit) * 2 ^ 40 + LG m

/-! ## Exponent rule and accumulators (R147, R149) -/

def YQ_MAX : Int := 227 * 2 ^ 24 - 1
def YQ_MIN : Int := -201 * 2 ^ 24

/-- yq of a value, and whether it clamped at YQ_MAX (R147). -/
def yqOf (z : U32) : Int × Bool :=
  let y := fMul z 0x3FB8AA3B#32
  if fInf y then (if fSign y then (YQ_MIN, false) else (YQ_MAX, true))
  else
    let (m, e) := fInt y
    let (n, d) := scale2 m.natAbs (e + 24)
    let q := rneQuotI (if m < 0 then -(n : Int) else n) d
    if YQ_MAX < q then (YQ_MAX, true) else (max q YQ_MIN, false)

/-- 2^y in units of 2^-200, floored (R149). -/
def termS (yq : Int) : Nat :=
  let n := yq / 2 ^ 24
  let m := EXP2M (yq % 2 ^ 24).toNat
  let sh := n - 39 + 200
  if 0 ≤ sh then m * 2 ^ sh.toNat else m / 2 ^ (-sh).toNat

/-- t * y in units of 2^-192, floored (R149). -/
def termY (t : Nat) (yq : Int) : Int := (t : Int) * yq / 2 ^ 32

/-- F(v): the fp32 value nearest to v * LN2Q * 2^-104 (R151). -/
def F (v : Int) : U32 := fRound (decide (v < 0)) (v.natAbs * 0xB17217F7D1CF79AC) (2 ^ 104)

/-- Y: the Q.40 mean of y under the row's distribution (R151). -/
def meanY (s : Nat) (y : Int) : Int :=
  let b := s.log2
  let s' := if 63 ≤ b then s / 2 ^ (b - 63) else s * 2 ^ (63 - b)
  let a := y * 256
  let a' := if 63 ≤ b then a / 2 ^ (b - 63) else a * 2 ^ (63 - b)
  rneQuotI (a' * 2 ^ 40) s'

/-! ## Gumbel key (R154) -/

/-- log2(log2 e) as the nearest multiple of 2^-40. -/
def KG : Int := 581384775430

/-- The Q.40 value of -log2(-ln u) for a draw word. -/
def G40 (w : U32) : Int :=
  let x := 2 * w.toNat + 1
  let e := x.log2
  let lx : Nat := e * 2 ^ 40 + LG (x * 2 ^ (63 - e))
  let p := 33 * 2 ^ 40 - lx
  let c := p.log2
  let lp : Nat := c * 2 ^ 40 + LG (p * 2 ^ (63 - c))
  40 * 2 ^ 40 - (lp : Int) + KG

/-! ## Real functions in fixed point with 256 fractional bits (DEDUCED, log entry 8) -/

/-- The scale of the fixed point. -/
def fxOne : Int := 2 ^ 256

def fxMul (x y : Int) : Int := x * y / fxOne

/-- The largest number below `2 ^ k` added bit by bit whose square is at most `n`. -/
def isqrtGo (n : Nat) : Nat → Nat → Nat
  | 0, r => r
  | k + 1, r => isqrtGo n k (if (r + 2 ^ k) * (r + 2 ^ k) ≤ n then r + 2 ^ k else r)

def fxSqrt (x : Int) : Int := isqrtGo (x.toNat * 2 ^ 256) 320 0

/-- The sum of `c n / (2 n + 1)` for `n = i, i + 1, ...` over `fuel` terms, where `c i = t` and each next is `q` times. -/
def fxOddSum (q : Int) : Nat → Nat → Int → Int
  | 0, _, _ => 0
  | fuel + 1, i, t => t / (2 * i + 1 : Nat) + fxOddSum q fuel (i + 1) (fxMul t q)

/-- Twice the inverse hyperbolic tangent of `z`, at most 1/3: the logarithm of (1 + z) / (1 - z). -/
def fxLn1 (z : Int) : Int := 2 * fxOddSum (fxMul z z) 90 0 z

def fxLn2 : Int := fxLn1 (fxOne / 3)

/-- The inverse tangent of `1 / n`. -/
def fxAtan (n : Nat) : Int := fxOddSum (-(fxOne / (n * n : Nat))) 120 0 (fxOne / n)

def fxPi : Int := 16 * fxAtan 5 - 4 * fxAtan 239

/-- The natural logarithm of a positive integer. -/
def fxLn (x : Nat) : Int :=
  let k := x.log2
  (k : Int) * fxLn2 + fxLn1 (((x : Int) - 2 ^ k) * fxOne / (x + 2 ^ k))

/-- The cosine series: the sum from term `t` of index `i` on, `q` the angle's square. -/
def fxCosGo (q : Int) : Nat → Nat → Int → Int
  | 0, _, _ => 0
  | fuel + 1, i, t => t + fxCosGo q fuel (i + 1) (-(fxMul t q) / ((2 * i + 1) * (2 * i + 2) : Nat))

/-- The cosine of 2 pi n / 2^33 for `n` below 2^33: its sign and its magnitude. -/
def fxCos (n : Nat) : Bool × Int :=
  let n := if 2 ^ 32 < n then 2 ^ 33 - n else n
  let m := if 2 ^ 31 < n then 2 ^ 32 - n else n
  let a := 2 * fxPi * m / 2 ^ 33
  (decide (2 ^ 31 < n), fxCosGo (fxMul a a) 60 0 fxOne)

/-! ## Brew distributions (R202-R205) -/

/-- The uniform variate of a word (R202). -/
def uniformVar (w : U32) : U32 := fRound false (uniform24 w) (2 ^ 24)

/-- The series of the normal distribution from 0 to x, without its factor: term `t` of index `i`, `q` half of minus the square. -/
def fxPhiGo (q : Int) : Nat → Nat → Int → Int
  | 0, _, _ => 0
  | fuel + 1, i, t => t / (2 * i + 1 : Nat) + fxPhiGo q fuel (i + 1) (fxMul t q / (i + 1 : Nat))

/-- sqrt(2 pi) times the probability between 0 and `x`. -/
def fxPhi (x : Int) : Int := fxPhiGo (-(fxMul x x) / 2) 220 0 x

/-- The value of a finite fp32 pattern without sign, as fixed point. -/
def fxOfF (x : U32) : Int :=
  let m := fMag x
  if 0 ≤ m.2 then m.1 * 2 ^ m.2.toNat * fxOne else m.1 * fxOne / 2 ^ (-m.2).toNat

/-- The largest fp32 pattern from `lo` on, below `2 ^ k` more, whose value has at most the probability `p`. -/
def ntGo (p : Int) : Nat → Nat → Nat
  | 0, lo => lo
  | k + 1, lo =>
    let x := lo + 2 ^ k
    ntGo p k (if x < 0x40C00000 ∧ fxPhi (fxOfF (BitVec.ofNat 32 x)) ≤ p then x else lo)

/-- Entry `k` of table BREW_NT (R204): the fp32 value nearest to the inverse normal distribution at
1/2 + k (1 - 2^-24) / 2048. -/
def brewNt (k : Nat) : U32 :=
  let p := fxMul (fxSqrt (2 * fxPi)) (k * (2 ^ 24 - 1) * fxOne / 2 ^ 35)
  let b := ntGo p 31 0
  let mid := (fxOfF (BitVec.ofNat 32 b) + fxOfF (BitVec.ofNat 32 (b + 1))) / 2
  if fxPhi mid < p then BitVec.ofNat 32 (b + 1) else BitVec.ofNat 32 b
/-- The fast normal variate of a word, from table BREW_NT (R204). -/
def fastNormal (w : U32) : U32 :=
  let s := (w >>> 21).toNat % 2 ^ 10
  let t := fRound false (w.toNat % 2 ^ 21) (2 ^ 21)
  let a := brewNt s
  let d := fSub (brewNt (s + 1)) a
  let m := fAdd a (fMul d t)
  if w.getLsbD 31 && !fZero m then fNeg m else m

/-- The precise normal variate of two words (R205). -/
def preciseVar (w0 w1 : U32) : U32 :=
  let l := 33 * fxLn2 - fxLn (2 * w0.toNat + 1)
  let c := fxCos (2 * w1.toNat + 1)
  fRound c.1 (fxMul (fxSqrt (2 * l)) c.2).toNat (2 ^ 256)

/-- The fast normal variate of word `n` of a stream at its coordinates (R204). -/
def fastAt (key : W4) (step : U32) (tag pos n : Nat) : U32 := fastNormal (draw key step tag pos n)

/-- The precise normal variate of index `n` of a stream at its coordinates: words 2n and 2n + 1 (R205). -/
def preciseAt (key : W4) (step : U32) (tag pos n : Nat) : U32 :=
  preciseVar (draw key step tag pos (2 * n)) (draw key step tag pos (2 * n + 1))

/-- An exact input or a result of stochastic rounding (R203): a NaN, an infinity, or the finite number `m * 2^e`, each
with its sign (a NaN's is not stated). -/
inductive Num where
  | nan
  | inf (neg : Bool)
  | fin (neg : Bool) (m : Nat) (e : Int)
  deriving DecidableEq, Repr

/-- The number an fp32 pattern stands for. -/
def numOfF (x : U32) : Num :=
  if fNan x then .nan else if fInf x then .inf (fSign x) else .fin (fSign x) (fMag x).1 (fMag x).2

/-- A target grid of stochastic rounding (R203): total and mantissa bits of a pattern, precision, exponent of the least
unit, largest finite magnitude as significand and exponent, and whether overflow gives that magnitude (E4M3). -/
structure Grid where
  bits : Nat
  prec : Nat
  eMin : Int
  maxM : Nat
  maxE : Int
  sat : Bool
  deriving DecidableEq, Repr

def gridBf16 : Grid := { bits := 16, prec := 8, eMin := -133, maxM := 255, maxE := 120, sat := false }
def gridFp16 : Grid := { bits := 16, prec := 11, eMin := -24, maxM := 2047, maxE := 5, sat := false }
def gridE4m3 : Grid := { bits := 8, prec := 4, eMin := -9, maxM := 14, maxE := 5, sat := true }
def gridE5m2 : Grid := { bits := 8, prec := 3, eMin := -16, maxM := 7, maxE := 13, sat := false }
def gridFp32 : Grid := { bits := 32, prec := 24, eMin := -149, maxM := 2 ^ 24 - 1, maxE := 104, sat := false }

/-- Stochastic rounding of the magnitude `n * 2^e` with byte `b` (R203): the result as significand and
exponent, none for infinity. -/
def stochRound (g : Grid) (n : Nat) (e : Int) (b : Byte) : Option (Nat × Int) :=
  if n = 0 then some (0, 0)
  else
    let maxOut : Option (Nat × Int) := if g.sat then some (g.maxM, g.maxE) else none
    -- all magnitudes in units of 2^c
    let c := min e g.eMin
    let m := n * 2 ^ (e - c).toNat
    let top := g.maxM * 2 ^ (g.maxE - c).toNat
    let topUlp := 2 ^ (g.maxE - c).toNat
    if top + topUlp ≤ m then maxOut
    else
      let u := max ((m.log2 : Int) + c - (g.prec - 1)) g.eMin
      let ulp := if top ≤ m then topUlp else 2 ^ (u - c).toNat
      let lo := if top ≤ m then top else m / ulp * ulp
      let d := 256 * (m - lo) / ulp
      if 256 ≤ d + b.toNat then
        (if lo + ulp > top then maxOut else some (lo + ulp, c))
      else some (lo, c)

/-- Stochastic rounding of a number with byte `b`: specials pass, a finite magnitude is rounded and keeps the input's
sign, zero included (R203). -/
def stochNum (g : Grid) (b : Byte) : Num → Num
  | .nan => .nan
  | .inf neg => .inf neg
  | .fin neg m e =>
    match stochRound g m e b with
    | none => .inf neg
    | some (m', e') => .fin neg m' e'

/-- Stochastic rounding of element `e` of a stream: the byte is the byte draw of index `e`, whatever the input (R203). -/
def stochElem (g : Grid) (key : W4) (step : U32) (tag pos e : Nat) (x : Num) : Num :=
  stochNum g (drawByte key step tag pos e) x

/-- The pattern of a rounded number on its grid: sign, biased exponent, mantissa. The bits of a NaN, and of an infinity
on a grid that has none (E4M3), are not stated: a free value. -/
def gridBits (g : Grid) (free : U64) (x : Num) : Nat :=
  let sgn (neg : Bool) : Nat := if neg then 2 ^ (g.bits - 1) else 0
  match x with
  | .nan => free.toNat % 2 ^ g.bits
  | .inf neg =>
    if g.sat then free.toNat % 2 ^ g.bits
    else sgn neg + (2 ^ (g.bits - 1) - 2 ^ (g.prec - 1))
  | .fin neg m e =>
    -- the magnitude in units of the least unit; its leading bit's place gives the exponent
    let n := if g.eMin ≤ e then m * 2 ^ (e - g.eMin).toNat else m / 2 ^ (g.eMin - e).toNat
    let k := n.log2 - (g.prec - 1)
    if n < 2 ^ (g.prec - 1) then sgn neg + n
    else sgn neg + (k + 1) * 2 ^ (g.prec - 1) + (n / 2 ^ k - 2 ^ (g.prec - 1))

end Sys2Proof.Machine
end

