-- ==== Sys2Proof/Machine/Sampler.lean ====
section
/-! DEFINITION. The sampler: straining and accumulating logits, merging partials, truncation, selection
and the records of a row (07_sampler.md R142-R161, R376). -/

namespace Sys2Proof.Machine

/-- Candidate capacity of a heat of `rows` rows (R152). -/
def candCap (rows : Nat) : Nat := if rows ≤ 2048 then 256 else 64

/-- CANDIDATE mode (R152). -/
def candMode (d : Desc) : Bool := !d.greedy && (d.topk != 0 || d.minp != 0 || d.topp != 0)

/-- Entries of the candidate list a lane keeps (R158). -/
def listCap (d : Desc) (rows : Nat) : Nat := if candMode d then candCap rows else d.topn

/-- Candidate order: z descending, ties to the lower index (R153). -/
def candLt (a b : Cand) : Bool := decide (b.zo < a.zo) || (a.zo == b.zo && decide (a.idx < b.idx))

def addCand (cap : Nat) (l : List Cand) (c : Cand) : List Cand := (insertBy candLt c l).take cap

/-- The better of two keys, ties to the lower index. -/
def betterKey (a b : Option (Int × Nat)) : Option (Int × Nat) :=
  match a, b with
  | none, x => x
  | x, none => x
  | some (k, i), some (l, j) => if l < k ∨ (k = l ∧ i ≤ j) then some (k, i) else some (l, j)

def betterZ (a b : Option Cand) : Option Cand :=
  match a, b with
  | none, x => x
  | x, none => x
  | some x, some y => if candLt y x then some y else some x

/-- Whether a mask region allows index `i` (R144). -/
def maskAllows (e : Engine) (addr nbytes i : Nat) : Bool :=
  decide (i < 8 * nbytes) && (memGet e.mem (addr + i / 8)).getLsbD (i % 8)

/-- Sum the adjust-list entries of index `i` into `x`, in list order (R145). -/
def adjGo (e : Engine) (addr i : Nat) : Nat → Nat → U32 → U32
  | 0, _, x => x
  | n + 1, k, x =>
    let x := if rdN e (addr + 8 * k) 3 = i then fAdd x (BitVec.ofNat 32 (rdN e (addr + 8 * k + 4) 4)) else x
    adjGo e addr i n (k + 1) x

/-- Occurrences of an index in the penalty window, before the token now sampled (R146). -/
def penCount (win : List U24) (i : Nat) : Nat := (win.filter (fun t => t.toNat == i)).length

/-- What straining gives: masked out, excluded as NaN, excluded as -inf, or z (R142, R143). -/
inductive Strained where
  | masked | nan | low
  | z (v : U32)
  deriving DecidableEq, Repr

/-- Strainer and temperature for index `i` of a row with penalty window `win` (R143). -/
def strain (e : Engine) (r : HRow) (win : List U24) (i : Nat) (x : U32) : Strained :=
  let allowed := match r.mask with
    | some (a, n) => maskAllows e a n i
    | none => true
  if !allowed then .masked
  else
    let x := match r.adj with
      | some (a, n) => adjGo e a i (n / 8) 0 x
      | none => x
    let c := penCount win i
    let x := if c = 0 ∨ (r.d.pres.toNat % 2 ^ 15 = 0 ∧ r.d.freq.toNat % 2 ^ 15 = 0) then x
      else fSub x (fAdd (bf16To r.d.pres) (fMul (bf16To r.d.freq) (fOfNat c)))
    let z := if r.d.greedy then x else fDiv x (bf16To r.d.temp)
    if fNan z then .nan else if z = negInf then .low else .z z

/-- Digest term of one (index, value) pair (R376). -/
def digestTerm (i : Nat) (x : U32) : U64 :=
  let b : U32 := if fNan x then qNaN else x
  let h : U64 := BitVec.ofNat 64 (i * 2 ^ 32 + b.toNat) * 0x9E3779B97F4A7C15#64
  h ^^^ (h >>> 29)

/-- How a stream is accumulated: list capacity, whether keys are drawn and how, whether the yq of every
index is kept (PAIR 1), the window of the row. -/
structure AccCfg where
  cap : Nat
  keyOf : Option (U128 × U32 × Nat)
  keep : Bool
  win : List U24
  deriving DecidableEq, Repr

/-- Take one logit into a partial (R142-R149, R155, R376). -/
def accOne (e : Engine) (r : HRow) (cfg : AccCfg) (i : Nat) (x : U32) (p : Part) : Part :=
  let p := { p with count := p.count + 1,
                    digest := if r.watch.toNat / 2 % 2 = 1 then p.digest + digestTerm i x else p.digest }
  match strain e r cfg.win i x with
  | .masked => { p with excl := p.excl + 1 }
  | .nan => { p with excl := p.excl + 1, nNan := p.nNan + 1 }
  | .low => { p with excl := p.excl + 1 }
  | .z z =>
    let (yq, cl) := yqOf z
    let t := termS yq
    let c : Cand := { idx := i, z := z, zo := fOrd z, yq := yq }
    let best := match cfg.keyOf with
      | some (key, st, pos) =>
        betterKey p.best (some (yq * 65536 + G40 (draw (w4of key) st 0 pos i), i))
      | none => p.best
    { p with accS := p.accS + t, accY := p.accY + termY t yq, best := best,
             cands := addCand cfg.cap p.cands c, maxZ := betterZ p.maxZ (some c), clamp := p.clamp || cl,
             nClamp := p.nClamp + b2n cl,
             pairs := if cfg.keep then p.pairs ++ [(i, yq)] else p.pairs }

/-- Logits `k` upwards of a payload, `n` of them, first index `v`. -/
def accGo (e : Engine) (r : HRow) (cfg : AccCfg) (fmt : Nat) (pl : List Byte) : Nat → Nat → Part → Part
  | 0, _, p => p
  | n + 1, v, p =>
    let w := fmtBytes fmt
    accGo e r cfg fmt (pl.drop w) n (v + 1) (accOne e r cfg v (logitTo fmt (ofLe (pl.take w))) p)

/-- Merge two partials (R159). -/
def mergePart (cap : Nat) (a b : Part) : Part :=
  { count := a.count + b.count, accS := a.accS + b.accS, accY := a.accY + b.accY, excl := a.excl + b.excl,
    best := betterKey a.best b.best, cands := b.cands.foldl (addCand cap) a.cands,
    maxZ := betterZ a.maxZ b.maxZ, clamp := a.clamp || b.clamp, nNan := a.nNan + b.nNan,
    nClamp := a.nClamp + b.nClamp, digest := a.digest + b.digest, pairs := a.pairs ++ b.pairs }

/-! ## Truncation and selection (R153-R155) -/

/-- Shortest initial run whose term sum T satisfies 65,536 T >= TOPP LACC_S (R153 step 3). -/
def toppGo (bound : Nat) : List Cand → Nat → Nat → Option Nat
  | [], _, _ => none
  | c :: cs, k, t =>
    let t := t + termS c.yq
    if bound ≤ 65536 * t then some (k + 1) else toppGo bound cs (k + 1) t

structure Kept where
  set : List Cand
  trunc : Bool
  deriving DecidableEq, Repr

/-- The kept set of a CANDIDATE row and its TRUNC (R153). -/
def keptOf (d : Desc) (cap : Nat) (p : Part) : Kept :=
  let all := p.cands.take cap
  let k := if d.topk = 0 then cap else min d.topk cap
  let s1 := all.take k
  let s2 := if d.minp = 0 then s1
    else match s1 with
      | [] => []
      | c :: _ => s1.filter (fun x => decide (L2Q d.minp (-16) ≤ (x.yq - c.yq) * 65536))
  let pre := if d.topp = 0 then none else toppGo (d.topp * p.accS) s2 0 0
  let s3 := match pre with
    | some n => s2.take n
    | none => s2
  { set := s3,
    trunc := decide (cap < d.topk)
      || (d.topk == 0 && decide (cap < p.count - p.excl) && s2.length == s1.length && pre.isNone) }

/-- The index selected, the kept set and TRUNC (R153, R155). -/
def selectTok (d : Desc) (cap : Nat) (key : U128) (step : U32) (pos : Nat) (p : Part) :
    Option Nat × Option (List Cand) × Bool :=
  if d.greedy then (p.maxZ.map (·.idx), none, false)
  else if candMode d then
    let k := keptOf d cap p
    let best := k.set.foldl (fun b c =>
      betterKey b (some (c.yq * 65536 + G40 (draw (w4of key) step 0 pos c.idx), c.idx))) none
    (best.map (·.2), some k.set, k.trunc)
  else (p.best.map (·.2), none, false)

/-! ## Outputs in nats (R151) -/

def sumTerms (l : List Cand) : Nat := l.foldl (fun t c => t + termS c.yq) 0

def lsOf (p : Part) : Int := L2Q p.accS (-200)
def logpYq (p : Part) (yq : Int) : U32 := F (min 0 (yq * 65536 - lsOf p))
def entOf (p : Part) : U32 := F (max 0 (lsOf p - meanY p.accS p.accY))
def lkeptOf (p : Part) (kept : Option (List Cand)) : U32 :=
  match kept with
  | none => 0
  | some l => F (min 0 (L2Q (sumTerms l) (-200) - lsOf p))

/-! ## Records (R160, R376) -/

/-- Fields of a token record. -/
structure TokRec where
  rid : U32
  tc : Nat
  ncont : Nat
  token : Nat
  seq : Nat
  code : Nat
  pver : U16
  logp : U32
  late : Bool
  fbk : Bool
  vwarn : Bool
  repin : Bool
  ended : Bool
  trunc : Bool
  clamp : Bool
  err : Bool
  gen : Nat
  deriving DecidableEq, Repr

def TokRec.bytes (t : TokRec) (e : Engine) : List Byte :=
  le 4 t.rid.toNat ++ le 1 t.tc ++ le 1 t.ncont ++ le 3 t.token ++ le 1 (32 * t.seq + t.code)
    ++ le 2 t.pver.toNat ++ le 4 t.logp.toNat
    ++ le 4 (2 ^ 31 * b2n t.late + 2 ^ 30 * b2n t.fbk + 2 ^ 29 * b2n t.vwarn + 2 ^ 28 * b2n t.repin
        + 2 ^ 27 * b2n t.ended + 2 ^ 26 * b2n t.trunc + 2 ^ 25 * b2n t.clamp + 2 ^ 24 * b2n t.err + t.gen)
    ++ le 4 (e.time.num.toNat % 2 ^ 32) ++ le 8 e.time.stamp.toNat

def detailRec (rid : U32) (tc : Nat) (p : Part) (kept : Option (List Cand)) : List Byte :=
  le 4 rid.toNat ++ le 1 tc ++ le 1 (16 + 1) ++ zeros 2 ++ le 4 (F (lsOf p)).toNat ++ le 4 (entOf p).toNat
    ++ le 4 (lkeptOf p kept).toNat
    ++ le 4 (match kept with
      | some l => l.length
      | none => p.count - p.excl)
    ++ le 4 p.excl ++ zeros 4

/-- Pair `rank` of the top-N list. -/
def topPair (p : Part) (topn rank : Nat) : List Byte :=
  if topn ≤ rank then zeros 8
  else match p.cands[rank]? with
    | none => zeros 8
    | some c => le 4 (2 ^ 31 + rank * 2 ^ 24 + c.idx) ++ le 4 (logpYq p c.yq).toNat

def topRec (rid : U32) (tc topn : Nat) (p : Part) (seqno : Nat) : List Byte :=
  let r := 3 * (seqno - 2)
  le 4 rid.toNat ++ le 1 tc ++ le 1 (2 * 16 + seqno) ++ zeros 2 ++ topPair p topn r ++ topPair p topn (r + 1)
    ++ topPair p topn (r + 2)

/-- NCONT: one detail record and the top-N records, with LOGPROB_EN (R160). -/
def nCont (d : Desc) : Nat := if d.logprobEn then 1 + ceilDiv d.topn 3 else 0

def contRecs (d : Desc) (tc : Nat) (p : Part) (kept : Option (List Cand)) : List (List Byte) :=
  if !d.logprobEn then []
  else detailRec d.rid tc p kept
    :: (List.range (ceilDiv d.topn 3)).map (fun i => topRec d.rid tc d.topn p (i + 2))

/-- The watch record of a row (R376). -/
def watchRec (rid : U32) (tc : Nat) (watch : U4) (p : Part) (gen : Nat) : List Byte :=
  let dig := watch.toNat / 2 % 2 == 1
  let st := watch.toNat / 4 % 2 == 1
  le 4 rid.toNat ++ le 1 tc ++ le 1 (7 * 16 + watch.toNat) ++ zeros 2
    ++ le 8 (if dig then p.digest.toNat else 0)
    ++ le 4 (if st then (match p.maxZ with
      | some c => c.z.toNat
      | none => negInf.toNat) else 0)
    ++ le 4 (if st then p.nNan else 0) ++ le 4 (if st then p.nClamp else 0) ++ le 4 gen

end Sys2Proof.Machine
end

