-- ==== Sys2Proof/Machine/Rows.lean ====
section
/-! DEFINITION. Logits blocks, streams and partials, done markers, the issue of token records, verify
items and draft rounds (07_sampler.md R136-R161, 08_speculative_verification.md R163-R186). -/

namespace Sys2Proof.Machine

def modHeat (f : Heat → Heat) (e : Engine) : Engine :=
  { e with heat := { e.heat with cur := e.heat.cur.map f } }

def rowAt (h : Heat) (row : Nat) : Option HRow := h.rows.find? (fun r => r.row == row)

def setIssued (row : Nat) (e : Engine) : Engine :=
  modHeat (fun h => { h with
    rows := h.rows.map (fun r => if r.row = row then { r with issued := true } else r) }) e

def homeQ (row : Nat) : Nat := row % 4

/-- Rows of the item a lead row heads, lead first. -/
def itemRows (h : Heat) (r : HRow) : List HRow := h.rows.filter (fun x => x.lead == r.row)

def isVerify (r : HRow) : Bool := r.kind == 3 || r.kind == 4
def isFollower (r : HRow) : Bool := r.kind == 5

/-! ## Streams (R137, R139) -/

def QStream.empty : QStream := { seen := false, last := false, part := Part.empty }
def Stream.empty (row pair : Nat) : Stream :=
  { row := row, pair := pair, q0 := .empty, q1 := .empty, q2 := .empty, q3 := .empty,
    merged := Part.empty, broken := false }

def streamAt (h : Heat) (row pair : Nat) : Stream :=
  (h.streams.find? (fun s => s.row == row && s.pair == pair)).getD (Stream.empty row pair)

def setStream (s : Stream) (e : Engine) : Engine :=
  modHeat (fun h => { h with
    streams := h.streams.filter (fun x => x.row != s.row || x.pair != s.pair) ++ [s] }) e

def dropStream (row pair : Nat) (e : Engine) : Engine :=
  modHeat (fun h => { h with streams := h.streams.filter (fun x => x.row != row || x.pair != pair) }) e

def Stream.at (s : Stream) (q : Nat) : QStream :=
  match q with
  | 0 => s.q0
  | 1 => s.q1
  | 2 => s.q2
  | _ => s.q3

def Stream.put (s : Stream) (q : Nat) (x : QStream) : Stream :=
  match q with
  | 0 => { s with q0 := x }
  | 1 => { s with q1 := x }
  | 2 => { s with q2 := x }
  | _ => { s with q3 := x }

/-- Tokens of the non-root nodes on the path to a node, oldest first. -/
def pathToks (nodes : List DNode) : Nat → Nat → List U24
  | 0, _ => []
  | fuel + 1, n =>
    if n = 0 then []
    else match nodes[n - 1]? with
      | some x => pathToks nodes fuel x.parent ++ [x.tok]
      | none => []

/-- The last 2,048 tokens (R146). -/
def lastWin (l : List U24) : List U24 := l.drop (l.length - 2048)

/-- The draft round open on a row, with its request (R167). -/
def roundOn (e : Engine) (r : HRow) : Option (Req × Nat × Nat) :=
  match reqByUid e r.uid with
  | some (_, q) => match q.w.draft.round with
    | some (n, k) => if q.w.draft.lead = r.row then some (q, n, k) else none
    | none => none
  | none => none

/-- How a stream of a row is accumulated. -/
def accCfg (e : Engine) (h : Heat) (r : HRow) (pair : Nat) : AccCfg :=
  if pair = 0 then
    if isVerify r || isFollower r then
      { cap := candCap h.nrows, keyOf := none, keep := false, win := r.win }
    else
      { cap := listCap r.d h.nrows,
        keyOf := if r.d.greedy || candMode r.d then none
          else some (r.key, BitVec.ofNat 32 r.gen, r.pos + r.ntok - 1),
        keep := false, win := r.win }
  else if pair = 1 then { cap := 0, keyOf := none, keep := true, win := r.win }
  else
    { cap := 0, keyOf := none, keep := true,
      win := match roundOn e r with
        | some (q, n, _) => lastWin (q.w.window ++ pathToks q.w.draft.nodes 9 n)
        | none => r.win }

/-- A row with its stream complete, and its paired stream when it has one (R139). -/
def rowComplete (h : Heat) (r : HRow) : Bool :=
  let s0 := streamAt h r.row 0
  let s1 := streamAt h r.row 1
  decide (s0.merged.count = h.vocab) && !s0.broken
    && (!r.paired || (decide (s1.merged.count = h.vocab) && !s1.broken))

/-- DRAIN_PROTOCOL for a row of a tenant's request (R386, R387). -/
def rowFault (row : Nat) (e : Engine) : Engine :=
  let (num, tc) := match e.heat.cur with
    | some h => (h.num.toNat, match rowAt h row with
      | some r => r.tc
      | none => 0)
    | none => (0, 0)
  fault .drainProtocol (BitVec.ofNat 8 tc) .none (hRow row) (hRow row) (BitVec.ofNat 64 (row + num * 2 ^ 14)) e

/-- The node whose round a PAIR 2 stream of a row is for (R166); 0 for the other streams. -/
def roundNode (e : Engine) (r : HRow) (pair : Nat) : Nat :=
  match pair, roundOn e r with
  | 2, some (_, n, _) => n
  | _, _ => 0

/-- A partial reaches its row's home quadrant: merged, or discarded as EXCESS, which one of a round that is over is
(R139, R159, R167). -/
def mergeIn (f : Flight) (e : Engine) : Engine :=
  match e.heat.cur with
  | none => e
  | some h =>
    match rowAt h f.row with
    | none => e
    | some r =>
      let s := streamAt h f.row f.pair
      let past := f.pair == 2 && match roundOn e r with
        | some (_, n, _) => n != f.node
        | none => true
      if past || decide (h.vocab < s.merged.count + f.part.count) then
        rowFault f.row (bumpSat rSPR_DRAIN_ERR 31 16 1 e)
      else
        setStream { s with merged := mergePart (accCfg e h r f.pair).cap s.merged f.part } e

/-! ## The stitch (R28-R30) -/

/-- The links of the route from `a` to `b`, each by its two quadrants (R28). -/
def hops (a b : Nat) : List (Nat × Nat) :=
  if a = b then [] else if (a + 2) % 4 = b then [(a, (a + 1) % 4), ((a + 1) % 4, b)] else [(a, b)]

def Flight.hops (f : Flight) : List (Nat × Nat) := Machine.hops f.src.toNat (homeQ f.row)

/-- Whether every link end of a flight's route has a credit: each holds 64 flits, a message being one
(R30) (DESIGN CHOICE, log entry 102). -/
def canSend (fs : List Flight) (f : Flight) : Bool :=
  f.hops.all (fun x => decide ((fs.filter (fun g => g.sent && g.hops.contains x)).length < 64))

/-- Flights that wait at their senders are sent while there are credits, oldest first. `fs` are those before them. -/
def sendMore : List Flight → List Flight → List Flight
  | fs, [] => fs
  | fs, f :: gs => sendMore (fs ++ [{ f with sent := f.sent || canSend (fs ++ gs) f }]) gs

/-- A partial leaves its quadrant, or waits there. -/
def launch (f : Flight) (e : Engine) : Engine :=
  { e with heat := { e.heat with flights := sendMore [] (e.heat.flights ++ [{ f with sent := false }]) } }

/-- Deliver the partials under way from `src` to `dst`, oldest first (R29); none while the route does not work. -/
def deliverFrom (src dst : Nat) (e : Engine) : Engine :=
  if !reach e src dst then e
  else
    let mine := e.heat.flights.filter (fun f => f.src.toNat == src && homeQ f.row == dst)
    let e := { e with heat := { e.heat with
      flights := sendMore [] (e.heat.flights.filter (fun f => f.src.toNat != src || homeQ f.row != dst)) } }
    mine.foldl (fun e f => mergeIn f e) e

/-! ## Token records (R130, R131, R140, R156, R160, R161) -/

/-- Issue the records of a row on its home manifest port (R24). -/
def rowRecords (r : HRow) (recs : List (List Byte)) (e : Engine) : Engine :=
  mpRecords (homeQ r.row) (r.watch.getLsbD 3) recs e

def heatPver (e : Engine) : U16 :=
  match e.heat.cur with
  | some h => h.pver
  | none => 0

/-- Whether a token issued as number `gen` of its request is LATE (R130). -/
def isLate (h : Heat) (r : HRow) (gen : Nat) : Bool :=
  let t := h.stride + BitVec.ofNat 48 h.cost
  (gen == 1 && r.ft != noDl && ahead t r.ft) || (r.dl != noDl && ahead t r.dl)

/-- A request's record after a token is issued to it (R86, R89, R146, R258, R79): whether it ended. -/
def tokenReq (e : Engine) (t : Nat) (late : Bool) (q : Req) : Req × Bool :=
  let q1 := { q with
    e := { q.e with gen := q.e.gen + 1, lateSeen := q.e.lateSeen || late,
                    pverMin := if q.e.pvset then q.e.pverMin else heatPver e, pvset := true },
    w := { q.w with window := lastWin (q.w.window ++ [BitVec.ofNat 24 t]), draft := q.w.draft.drop,
                    repinTok := false, lastPver := heatPver e, lateHeat := q.w.lateHeat || late } }
  let (sm, hit) := stopUpdate e q t
  let q2 := { q1 with e := { q1.e with stopm := sm, kvpos := ctxOf q1 - 1,
                                       st := if q1.e.st = .prefilling then .running else q1.e.st } }
  match stopReason q2 hit with
  | none => (q2, false)
  | some (reason, sq) =>
    if terminal q2.e.st then (q2, false)
    else (endRec .finished reason sq (holdTo e) false q2, true)

/-- Apply an issued token to its request: context array, rollout store, Baton, counters. The engine,
GEN after the token, the end it met, and whether the token is the first after a re-pin. -/
structure Issued where
  eng : Engine
  gen : Nat
  ended : Option (Nat × Nat)
  late : Bool
  repin : Bool

def applyToken (h : Heat) (r : HRow) (gen t : Nat) (e : Engine) : Issued :=
  let late := isLate h r gen
  let e := count 3 4 1 (tcount r.tc 3 1 e)
  let e := if late then
      count 3 8 1 (tcount r.tc 6 1 (bumpOpen (rRQT_DL_TCNT r.tc) 31 0 1 (bumpOpen rRQT_DL_LATE 31 0 1
        (modTen r.tc (fun x => { x with dl := { x.dl with late := x.dl.late + 1 } }) e))))
    else e
  match reqByUid e r.uid with
  | none => { eng := e, gen := gen, ended := none, late := late, repin := false }
  | some (_, q) =>
    let (q', ended) := tokenReq e t late q
    let e := modUid r.uid (fun _ => q') e
    let e := if q.d.promptAddr ≠ 0 then wrN (q.d.promptAddr + 4 * (ctxOf q' - 1)) 4 t e else e
    let e := if ended then
        let e := rolloutEnd q' (heatPver e) e
        match q.e.st, q.w.baton with
        | .handedOff, some b =>
          modKv (fun k => { k with batons := k.batons.filter (fun x => !(x.sender && x.num.toNat == b)) }) e
        | _, _ => e
      else e
    { eng := e, gen := q'.e.gen, ended := if ended then some (q'.e.reason, q'.e.seq) else none,
      late := late, repin := q.w.repinTok }

/-- The token record and continuation records of an issued token. -/
def tokenRecs (h : Heat) (r : HRow) (x : Issued) (t : Nat) (yq : Int) (p : Part)
    (kept : Option (List Cand)) (trunc : Bool) : List (List Byte) :=
  let rec_ : TokRec := {
    rid := r.rid, tc := r.tc, ncont := nCont r.d, token := t,
    seq := match x.ended with
      | some (2, s) => s
      | _ => 0,
    code := match x.ended with
      | some (c, _) => c
      | none => 0,
    pver := h.pver, logp := if r.d.logprobEn then logpYq p yq else 0, late := x.late, fbk := r.fbk,
    vwarn := x.eng.pwr.vwarnNow, repin := x.repin, ended := x.ended.isSome, trunc := trunc,
    clamp := p.clamp, err := false, gen := x.gen }
  rec_.bytes x.eng :: contRecs r.d r.tc p kept

/-- Counts of a token record's CLAMP and TRUNC. -/
def countFlags (p : Part) (trunc : Bool) (e : Engine) : Engine :=
  let e := if p.clamp then count 2 11 1 (bumpOpen rSPR_VALUES 31 0 1 e) else e
  if trunc then bumpOpen rSPR_TRUNC 31 0 1 e else e

/-- An error record: no token is issued (R140, R156). `code` 1 SHORT, 2 EMPTY. CLAMP and TRUNC are 0
(DESIGN CHOICE, log entry 115). -/
def errorRecord (h : Heat) (r : HRow) (code : Nat) (e : Engine) : Engine :=
  let gen := match reqByUid e r.uid with
    | some (_, q) => q.e.gen
    | none => r.gen
  let rec_ : TokRec := {
    rid := r.rid, tc := r.tc, ncont := 0, token := 0xFFFFFF, seq := 0, code := code, pver := h.pver,
    logp := 0, late := false, fbk := r.fbk, vwarn := e.pwr.vwarnNow, repin := false, ended := false,
    trunc := false, clamp := false, err := true, gen := gen }
  let e := modUid r.uid (fun q =>
    let k := if isVerify r then q.e.kvpos else r.pos + r.ntok - 1
    { q with e := { q.e with kvpos := k,
                             st := if q.e.st = .prefilling ∧ k = ctxOf q - 1 then .running else q.e.st } }) e
  let e := count 2 9 1 (tcount r.tc 3 1 e)
  let e := if code = 1 then bumpOpen rSPR_ROW_ERR 63 32 1 e else bumpOpen rSPR_ROW_ERR 31 0 1 e
  let e := rowRecords r [rec_.bytes e] e
  let e := setIssued r.row e
  if code = 1 then rowFault r.row e else e

/-- The watch record of a row or item, after its records (R376). -/
def issueWatch (r : HRow) (p : Part) (e : Engine) : Engine :=
  if r.watch.toNat / 2 % 4 = 0 then e
  else
    let gen := match reqByUid e r.uid with
      | some (_, q) => q.e.gen
      | none => r.gen
    mpRecords (homeQ r.row) true [watchRec r.rid r.tc r.watch p gen] e

/-! ## Draft rounds (R163-R170) -/

def specOn (e : Engine) : Bool := regB e rSPR_SPEC_CTRL 63
def specTree (e : Engine) : Bool := regB e rSPR_SPEC_CTRL 62

/-- BR[d]: children of a node at depth `d` (R165). -/
def brAt (e : Engine) (greedy : Bool) (d : Nat) : Nat :=
  if !specTree e then 1
  else
    let b := min 8 (regN e rSPR_SPEC_CTRL (4 * d + 3) (4 * d))
    if greedy then min 1 b else b

def nMax (e : Engine) (d : Desc) : Nat := min d.specMax (if specTree e then 64 else 8)

def nodeDepth (nodes : List DNode) (n : Nat) : Nat :=
  if n = 0 then 0 else match nodes[n - 1]? with
    | some x => x.depth
    | none => 0

/-- The next node to expand and the children it draws (R165). -/
def nextExpand (e : Engine) (q : Req) : Option (Nat × Nat) :=
  let dr := q.w.draft
  if nMax e q.d ≤ dr.nodes.length then none
  else
    let cand : List (Nat × Nat × Bool) :=
      (0, 0, dr.rootExpanded) :: (dr.nodes.zipIdx).map (fun p => (p.2 + 1, p.1.depth, p.1.expanded))
    match cand.find? (fun c => !c.2.2 && decide (c.2.1 < 8) && decide (0 < brAt e q.d.greedy c.2.1)) with
    | none => none
    | some c => some (c.1, min (brAt e q.d.greedy c.2.1) (nMax e q.d - dr.nodes.length))

/-- The draft order record of a node (R170). -/
def draftOrderRec (e : Engine) (q : Req) (lead n nchild : Nat) : List Byte :=
  let dr := q.w.draft
  let tok := if n = 0 then (q.w.window.getLast?.getD 0) else match dr.nodes[n - 1]? with
    | some x => x.tok
    | none => 0
  let d := nodeDepth dr.nodes n
  le 4 q.d.rid.toNat ++ le 1 q.tc ++ le 1 (3 * 16 + nchild) ++ le 1 n ++ le 1 d ++ le 3 tok.toNat ++ [0]
    ++ le 4 ((ctxOf q - 1 + d) % 2 ^ 20) ++ le 4 (dr.pkv % 2 ^ 20) ++ le 2 lead ++ zeros 2
    ++ le 8 e.time.stamp.toNat

/-- The engine's draft store holds the draft state of a request in a slot (R163); how is not stated, and the 512 bytes
are free values (DESIGN CHOICE, log entry 118). -/
def draftKeep (uid : Nat) (e : Engine) : Engine :=
  match reqByUid e uid with
  | some (some slot, _) =>
    let b := (List.range 64).flatMap (fun i => le 8 (Config.unstated (e.free + i)).toNat)
    wr ((reg e rSPR_DRAFT_BASE).toNat / 4096 * 4096 + 512 * slot) b { e with free := e.free + 64 }
  | _ => e

/-- Order the next round of a request on a lead row, when growth continues. -/
def orderRound (uid lead : Nat) (e : Engine) : Engine :=
  match reqByUid e uid with
  | none => e
  | some (_, q) =>
    match nextExpand e q with
    | none => e
    | some (n, k) =>
      let e := modUid uid (fun q => { q with w := { q.w with
        draft := { q.w.draft with round := some (n, k), lead := lead } } }) e
      let e := draftKeep uid e
      mpRecords (homeQ lead) false [draftOrderRec e q lead n k] e

/-- The pacer model of a model, when it is registered (R242). -/
def pacerOf (e : Engine) (m : Nat) : Option (Nat × Model) :=
  match tget? e.models m with
  | some x => (tget? e.models x.pacer).map (fun p => (x.pacer, p))
  | none => none

/-- Start drafting for the request of a row that issued a token, if R164 holds. -/
def startDraft (h : Heat) (r : HRow) (e : Engine) : Engine :=
  match reqByUid e r.uid with
  | some (some _, q) =>
    let pacerOk := match pacerOf e q.d.model with
      | some (_, p) => p.vocab == h.vocab
      | none => false
    if specOn e && pacerOk && q.e.st == .running && !q.e.fbk && decide (1 ≤ q.d.specMax) then
      orderRound r.uid r.row e
    else e
  | _ => e

/-- Children of a round: token, and LQ in Q.40 (R168). -/
def drawChildren (key : U128) (q : Req) (p : Part) (n k : Nat) : List (Nat × Int) :=
  if p.accS = 0 then []
  else
    let pos := ctxOf q - 1 + nodeDepth q.w.draft.nodes n
    let lq (yq : Int) : Int := min 0 (yq * 65536 - lsOf p)
    if q.d.greedy then
      match p.maxZ with
      | some c => [(c.idx, lq c.yq)]
      | none => []
    else
      (List.range k).filterMap (fun c =>
        let best := p.pairs.foldl (fun (b : Option (Int × Nat × Int)) x =>
          let kk := x.2 * 65536 + G40 (draw (w4of key) (BitVec.ofNat 32 (q.e.gen * 128 + c)) n pos x.1)
          match b with
          | none => some (kk, x.1, x.2)
          | some (m, i, _) => if m < kk ∨ (m = kk ∧ x.1 < i) then some (kk, x.1, x.2) else b) none
        best.map (fun b => (b.2.1, lq b.2.2)))

/-- DRAFT stream key of a request (R191, R192). -/
def draftKey (e : Engine) (q : Req) : U128 := (streamKey (ten e q.tc).tseed 1 q.d.rid q.d.salt 0).val

def draftResultRec (q : Req) (n first : Nat) (toks : List Nat) (done : Bool) : List Byte :=
  le 4 q.d.rid.toNat ++ le 1 q.tc ++ le 1 (5 * 16 + toks.length) ++ le 1 (128 * b2n done + n) ++ le 1 first
    ++ padTo 24 (toks.flatMap (fun t => le 3 t))

/-- Expand the node of a complete round: children, result record, next order (R166, R168, R169). -/
def finishRound (r : HRow) (e : Engine) : Engine :=
  match e.heat.cur, roundOn e r with
  | some h, some (q, n, k) =>
    let p := (streamAt h r.row 2).merged
    if p.count ≠ h.vocab then e
    else
      let kids := drawChildren (draftKey e q) q p n k
      let dr := q.w.draft
      let first := dr.nodes.length + 1
      let d := nodeDepth dr.nodes n + 1
      let nodes := (dr.nodes.zipIdx).map (fun x => if x.2 + 1 = n then { x.1 with expanded := true } else x.1)
      let nodes := nodes ++ kids.map (fun c => ({
        tok := BitVec.ofNat 24 c.1, parent := n, depth := d, lq := c.2, expanded := false } : DNode))
      let dr' : Draft := { dr with
        nodes := nodes, rootExpanded := dr.rootExpanded || n == 0, round := none,
        pkv := if n = 0 then ctxOf q else dr.pkv }
      let q' := { q with w := { q.w with draft := dr' } }
      let more := if kids.isEmpty then none else nextExpand e q'
      let e := draftKeep r.uid (dropStream r.row 2 (modUid r.uid (fun _ => q') e))
      let e := count 3 7 1 (mpRecords (homeQ r.row) false
        [draftResultRec q n first (kids.map (·.1)) more.isNone] e)
      if more.isSome then orderRound r.uid r.row e else e
  | _, _ => e

/-- Withdraw a round still open at step-done (R170). -/
def cutRound (r : HRow) (e : Engine) : Engine :=
  let e := modUid r.uid (fun q => { q with w := { q.w with draft := { q.w.draft with round := none } } }) e
  let e := draftKeep r.uid e
  dropStream r.row 2 (bumpSat rSPR_SPEC_ERR 47 32 1 e)

/-! ## Issue of a row (R160) -/

/-- Sample a complete row and issue its records. -/
def issueRow (r : HRow) (e : Engine) : Engine :=
  match e.heat.cur with
  | none => e
  | some h =>
    let p := (streamAt h r.row 0).merged
    let pos := r.pos + r.ntok - 1
    let (tok, kept, trunc) := selectTok r.d (candCap h.nrows) r.key (BitVec.ofNat 32 r.gen) pos p
    match tok with
    | none => issueWatch r p (errorRecord h r 2 e)
    | some t =>
      if p.accS = 0 then issueWatch r p (errorRecord h r 2 e)
      else
        let yq := match p.best, p.cands.find? (fun c => c.idx == t), p.maxZ with
          | some b, _, _ => (b.1 - G40 (draw (w4of r.key) (BitVec.ofNat 32 r.gen) 0 pos t)) / 65536
          | none, some c, _ => c.yq
          | none, none, some c => c.yq
          | none, none, none => 0
        let x := applyToken h r (r.gen + 1) t e
        let e := countFlags p trunc x.eng
        let e := rowRecords r (tokenRecs h r x t yq p kept trunc) e
        startDraft h r (issueWatch r p (setIssued r.row e))

/-! ## Verify items (R175-R184) -/

/-- A term shifted so that the leading bit of its accumulator is bit 63 (R175). -/
def shiftTo (b : Nat) (t : Nat) : Nat := if 63 ≤ b then t / 2 ^ (b - 63) else t * 2 ^ (63 - b)

/-- Weights of a node's row: kept indices with W_i. -/
def rowWeights (p : Part) (kept : List Cand) : List (Nat × Nat) :=
  kept.map (fun c => (c.idx, shiftTo p.accS.log2 (termS c.yq)))

def wSum (w : List (Nat × Nat)) : Nat := w.foldl (fun t x => t + x.2) 0
def wAt (w : List (Nat × Nat)) (i : Nat) : Nat := wSum (w.filter (fun x => x.1 == i))

/-- Q_i of a PAIR 1 state. -/
def qAt (p : Part) (i : Nat) : Nat :=
  (p.pairs.filter (fun x => x.1 == i)).foldl (fun t x => t + shiftTo p.accS.log2 (termS x.2)) 0

/-- Weights after a rejection: none when their sum becomes 0 (R177). -/
def residual (w : List (Nat × Nat)) (p1 : Part) (sq : Nat) : Option (List (Nat × Nat)) :=
  let t := wSum w
  let w1 := w.map (fun x => (x.1, x.2 * sq - qAt p1 x.1 * t))
  let t1 := wSum w1
  if t1 = 0 then none
  else
    let sh := (t1.log2 + 1) - 64
    let w2 := w1.map (fun x => (x.1, x.2 / 2 ^ sh))
    if wSum w2 = 0 then none else some w2

/-- State of a walk over an item. -/
structure WalkSt where
  eng : Engine
  recs : List (List Byte)
  ntok : Nat
  path : List Nat
  rej : Nat
  mismatch : Bool
  reszero : Bool
  bonus : Bool
  stopEmpty : Bool
  empty : Bool

/-- Issue one token of an item from the state of a row. -/
def itemToken (h : Heat) (r : HRow) (row : HRow) (t : Nat) (kept : List Cand) (trunc : Bool) (s : WalkSt) :
    WalkSt × Bool :=
  let p := (streamAt h row.row 0).merged
  let yq := match p.cands.find? (fun c => c.idx == t) with
    | some c => c.yq
    | none => 0
  let x := applyToken h r (r.gen + s.ntok + 1) t s.eng
  let e := countFlags p trunc x.eng
  ({ s with eng := e, ntok := s.ntok + 1,
            recs := s.recs ++ tokenRecs h r x t yq p (some kept) trunc }, x.ended.isSome)

/-- Whether the verify-time LQ of a child differs from the stored one (R181); a child that the PAIR 1 state excludes has
none, and counts as differing (DESIGN CHOICE, log entry 117). -/
def lqDiffers (p1 : Part) (c : HRow) : Bool :=
  match p1.pairs.find? (fun x => x.1 == c.tokn.toNat) with
  | some x => min 0 (x.2 * 65536 - lsOf p1) != c.lq
  | none => true

def noteLq (p1 : Part) (c : HRow) (s : WalkSt) : WalkSt :=
  if lqDiffers p1 c then
    { s with mismatch := true, eng := bumpSat rSPR_SPEC_ERR 63 48 1 s.eng }
  else s

/-- Try the children of a node in order: the accepted child, the weights left, the children tried. -/
def tryKids (d : Desc) (key : U128) (step : U32) (pos : Nat) (p1 : Part) (sel : Option Nat) (sq : Nat) :
    List HRow → List (Nat × Nat) → Nat → WalkSt → Option HRow × List (Nat × Nat) × Nat × WalkSt
  | [], w, j, s => (none, w, j, s)
  | c :: cs, w, j, s =>
    let s := noteLq p1 c s
    let x := c.tokn.toNat
    let ok := if d.greedy then sel == some x
      else
        let u := (draw (w4of key) step 0 pos (0xFFFFC0 + j)).toNat
        wAt w x != 0 && decide ((2 * u + 1) * wSum w * qAt p1 x < 2 ^ 33 * wAt w x * sq)
    if ok then (some c, w, j, s)
    else
      let s := { s with rej := s.rej + 1 }
      if d.greedy then tryKids d key step pos p1 sel sq cs w (j + 1) s
      else match residual w p1 sq with
        | some w' => tryKids d key step pos p1 sel sq cs w' (j + 1) s
        | none => tryKids d key step pos p1 sel sq cs w (j + 1)
            { s with reszero := true, eng := bumpSat rSPR_SPEC_ERR 31 16 1 s.eng }

/-- Index of largest L2Q(W_i, 0) + G40(w_i) (R178). -/
def residualPick (key : U128) (step : U32) (pos : Nat) (w : List (Nat × Nat)) : Option Nat :=
  ((w.filter (fun x => x.2 != 0)).foldl (fun b x =>
    betterKey b (some (L2Q x.2 0 + G40 (draw (w4of key) step 0 pos x.1), x.1))) none).map (·.2)

/-- The selection of R155 over the row of an item, always in CANDIDATE mode. -/
def itemSelect (d : Desc) (key : U128) (step : U32) (pos : Nat) (kept : List Cand) (p : Part) : Option Nat :=
  if d.greedy then p.maxZ.map (·.idx)
  else (kept.foldl (fun b c =>
    betterKey b (some (c.yq * 65536 + G40 (draw (w4of key) step 0 pos c.idx), c.idx))) none).map (·.2)

/-- Walk the item from a node's row (R178). -/
def itemWalk (h : Heat) (r : HRow) : Nat → HRow → WalkSt → WalkSt
  | 0, _, s => s
  | fuel + 1, row, s =>
    let p := (streamAt h row.row 0).merged
    let k := keptOf r.d (candCap h.nrows) p
    if p.accS = 0 ∨ k.set.isEmpty then
      if row.row = r.row then { s with empty := true } else { s with stopEmpty := true }
    else
      let p1 := (streamAt h row.row 1).merged
      let step := BitVec.ofNat 32 (r.gen + s.ntok)
      let sel := itemSelect r.d r.key step row.pos k.set p
      let kids := (itemRows h r).filter (fun c => c.row != r.row && c.parent == row.node)
      let sq := shiftTo p1.accS.log2 p1.accS
      let noSq := row.paired && p1.accS == 0
      let s := if noSq then { s with mismatch := true } else s
      let (took, w, j, s) :=
        if noSq then (none, rowWeights p k.set, 0, s)
        else tryKids r.d r.key step row.pos p1 sel sq kids (rowWeights p k.set) 0 s
      match took with
      | some c =>
        let (s, ended) := itemToken h r row c.tokn.toNat k.set k.trunc { s with path := s.path ++ [c.node] }
        if ended then s else itemWalk h r fuel c s
      | none =>
        let t := if j = 0 ∨ r.d.greedy then sel else residualPick r.key step row.pos w
        match t with
        | none => s
        | some t => (itemToken h r row t k.set k.trunc { s with bonus := kids.isEmpty }).1

def verifyRec (e : Engine) (r : HRow) (s : WalkSt) : List Byte :=
  let flags := 128 * b2n s.mismatch + 64 * b2n s.reszero + 32 * b2n (r.kind == 4) + 16 * b2n s.bonus
    + 8 * b2n s.stopEmpty
  le 4 r.rid.toNat ++ le 1 r.tc ++ le 1 (4 * 16 + s.ntok) ++ le 1 r.draft ++ le 1 s.path.length
    ++ le 1 flags ++ le 1 s.rej ++ zeros 2 ++ padTo 8 (s.path.map (BitVec.ofNat 8))
    ++ le 4 (e.time.num.toNat % 2 ^ 32) ++ le 8 e.time.stamp.toNat

/-- PKV after a verify that accepted the nodes of `path` (R169). -/
def pkvAfter (h : Heat) (r : HRow) (path : List Nat) : Nat :=
  let ctx := r.pos + 1
  match path.getLast? with
  | none => ctx
  | some n => match (itemRows h r).find? (fun x => x.node == n) with
    | some x => if x.expanded then ctx + path.length else ctx + path.length - 1
    | none => ctx + path.length - 1

/-- Verify a complete item and issue its records (R178-R184). -/
def issueItem (r : HRow) (e : Engine) : Engine :=
  match e.heat.cur with
  | none => e
  | some h =>
    let s := itemWalk h r 10 r {
      eng := e, recs := [], ntok := 0, path := [], rej := 0, mismatch := false, reszero := false,
      bonus := false, stopEmpty := false, empty := false }
    let p := (streamAt h r.row 0).merged
    if s.empty then issueWatch r p (errorRecord h r 2 s.eng)
    else
      let a := s.path.length
      let e := count 3 5 1 (count 3 6 a (bumpOpen rSPR_SPEC_CNT 63 32 r.draft
        (bumpOpen rSPR_SPEC_CNT 31 0 a s.eng)))
      let e := modUid r.uid (fun q => { q with w := { q.w with
        draft := { q.w.draft.drop with pkv := pkvAfter h r s.path } } }) e
      let e := draftKeep r.uid e
      let e := rowRecords r (verifyRec e r s :: s.recs) e
      startDraft h r (issueWatch r p (setIssued r.row e))

/-! ## Completion of a heat (R140, R170, R182) -/

/-- Whether quadrant `q` holds the done markers of all four quadrants. -/
def allMarkers (h : Heat) (q : Nat) : Bool :=
  (List.range 4).all (fun s => h.markers.any (fun m => m.1.toNat == s && m.2.toNat == q))

/-- Judge one row or item once its home quadrants hold all done markers: SHORT when incomplete, and the
end of an open round. -/
def judgeRow (r : HRow) (e : Engine) : Engine :=
  match e.heat.cur with
  | none => e
  | some h =>
    if !r.logits || isFollower r then e
    else
      let rows := if isVerify r then itemRows h r else [r]
      if !rows.all (fun x => allMarkers h (homeQ x.row)) then e
      else
        let e := if (match rowAt h r.row with
            | some x => x.issued
            | none => true) || rows.all (rowComplete h) then e
          else
            let e := errorRecord h r 1 e
            if isVerify r then
              modUid r.uid (fun q => { q with w := { q.w with draft := q.w.draft.drop } }) e
            else e
        match roundOn e r with
        | some _ => if (streamAt h r.row 2).merged.count = h.vocab then e else cutRound r e
        | none => e

def judge (e : Engine) : Engine :=
  match e.heat.cur with
  | none => e
  | some h => h.rows.foldl (fun e r => judgeRow r e) e

/-! ## The drain buffer (R27, R292) -/

def bufOf (e : Engine) (q : Nat) : List (U64 × List Byte) := tget [] e.port.buf q
def setBuf (q : Nat) (b : List (U64 × List Byte)) (e : Engine) : Engine :=
  { e with port := { e.port with buf := if b.isEmpty then tdel e.port.buf q else tset e.port.buf q b } }

/-- Blocks of a stream that wait for the lanes of a port. -/
def waitingOf (e : Engine) (q row pair : Nat) : List (U64 × List Byte) :=
  (bufOf e q).filter (fun b => bits b.1 45 32 == row && bits b.1 59 58 == pair)

/-- The tenant of a block's row (R292). -/
def blkTenant (e : Engine) (tag : U64) : Nat :=
  match e.heat.cur.bind (fun h => rowAt h (bits tag 45 32)) with
  | some r => r.tc
  | none => 0

/-- A lane takes a logits block into its stream (R139, R142-R149). -/
def logitsAccept (port : Quad) (tag : U64) (pl : List Byte) (e : Engine) : Engine :=
  match e.heat.cur with
  | none => e
  | some h =>
    let row := bits tag 45 32
    let pair := bits tag 59 58
    match rowAt h row with
    | none => e
    | some r =>
      let s := streamAt h row pair
      let q := s.at port.toNat
      let p := accGo e r (accCfg e h r pair) (bits tag 57 55) pl (bits tag 11 1) (bits tag 31 12) q.part
      let nan := p.nNan - q.part.nNan
      let last := bit tag 54
      let e := setStream (s.put port.toNat { seen := true, last := last, part := p }) e
      let e := if nan = 0 then e else count 2 10 nan (bumpOpen rSPR_VALUES 63 32 nan e)
      let e := tcount r.tc 4 1024 e
      if !last then e
      else
        let f : Flight := { src := port, row := row, pair := pair, node := roundNode e r pair, part := p, sent := true }
        if homeQ row = port.toNat then mergeIn f e else launch f e

/-- The tenant whose turn it is at a port, with the blocks left of its quantum of DP_SHARE x 1,024 bytes: deficit round
robin over the tenants of the blocks that wait, in rising TC (R292) (DESIGN CHOICE, log entry 93). -/
def drrTurn (e : Engine) (q : Nat) (ts : List Nat) : Nat × Nat :=
  let fresh (t : Nat) : Nat × Nat := (t, max 1 (ten e t).qos.dpShare)
  match tget? e.port.drr q with
  | some (t, n) =>
    if ts.contains t && decide (0 < n) then (t, n)
    else fresh ((ts.find? (fun x => decide (t < x))).getD (ts.headD 0))
  | none => fresh (ts.headD 0)

/-- Pass one waiting block to the lanes. -/
def passOne (q : Nat) (e : Engine) : Engine :=
  let b := bufOf e q
  let ts := (b.map (fun x => blkTenant e x.1)).foldl (fun l t => ninsert l t) []
  let (t, n) := drrTurn e q ts
  match b.find? (fun x => blkTenant e x.1 == t) with
  | none => e
  | some x =>
    let e := setBuf q (b.erase x) { e with port := { e.port with drr := tset e.port.drr q (t, n - 1) } }
    logitsAccept (BitVec.ofNat 2 q) x.1 x.2 e

/-- Pass the waiting blocks of a port, at most `fuel` of them, while `go`; behind the last one its own done marker
stands (R140). -/
def passGo (go : Engine → Bool) (q : Nat) : Nat → Engine → Engine
  | 0, e => e
  | fuel + 1, e =>
    if (bufOf e q).isEmpty || !go e then e
    else
      let e := passOne q e
      passGo go q fuel (if !(bufOf e q).isEmpty then e else modHeat (fun h =>
        let m := (BitVec.ofNat 2 q, BitVec.ofNat 2 q)
        if h.done.getLsbD q && !h.markers.contains m then { h with markers := h.markers ++ [m] } else h) e)

/-- Pass every waiting block of a port, as its heat ends. -/
def passAll (q : Nat) (e : Engine) : Engine := passGo (fun _ => true) q (bufOf e q).length e

/-- The step-done of a port has come (R140). -/
def portDone (e : Engine) (q : Nat) : Bool :=
  match e.heat.cur with
  | some h => h.done.getLsbD q
  | none => false

/-- A manifest queue with room (R318). -/
def mpRoom (q : Nat) (e : Engine) : Bool := decide ((mpOf e q).queue.length < 4096)

/-- The lanes take the blocks that wait, unless the quadrant's manifest queue is full; each block that they take gives
its credit back, and a port whose credits are not withheld holds back only those of the blocks that wait (R27, R292,
R318). -/
def drainPass (q : Nat) (e : Engine) : Engine :=
  if !mpRoom q e then e
  else
    let w := !(bufOf e q).isEmpty
    let e := passGo (mpRoom q) q (bufOf e q).length e
    let e := if w && portDone e q then judge e else e
    let n := 128 - (bufOf e q).length
    { e with port := { e.port with crd := if n = 128 then tdel e.port.crd q else tset e.port.crd q n } }

/-- Issue a row or item that is complete and not yet issued. -/
def issueIfReady (r : HRow) (e : Engine) : Engine :=
  match e.heat.cur with
  | none => e
  | some h => match rowAt h r.row with
    | none => e
    | some x =>
      if x.issued || !x.logits || isFollower x then e
      else if isVerify x then (if (itemRows h x).all (rowComplete h) then issueItem x e else e)
      else if rowComplete h x then issueRow x e else e

/-- Rows without logits are complete when the step is done: their KV exists (R79). -/
def stepKv (e : Engine) : Engine :=
  match e.heat.cur with
  | none => e
  | some h => (h.rows.filter (fun r => r.kind == 2 && !r.logits)).foldl (fun e r =>
      setIssued r.row (modUid r.uid (fun q =>
        let k := r.pos + r.ntok
        { q with e := { q.e with kvpos := k,
                                 st := if q.e.st = .prefilling ∧ k = ctxOf q - 1 then .running else q.e.st } })
        e)) e

/-- Finish the rounds that are complete, at most `fuel` in turn. -/
def finishRounds : Nat → Engine → Engine
  | 0, e => e
  | fuel + 1, e =>
    match e.heat.cur with
    | none => e
    | some h =>
      let e' := h.rows.foldl (fun e r => finishRound r e) e
      match e'.heat.cur with
      | some h' => if h'.streams == h.streams then e' else finishRounds fuel e'
      | none => e'

/-- Bring the heat computing to its end: every block passes to the lanes, every partial and marker arrives, complete rows and items are
issued in row order, the rest are judged. -/
def heatFinish (e : Engine) : Engine :=
  match e.heat.cur with
  | none => e
  | some h =>
    if h.done ≠ 0xF then e
    else
      let e := (List.range 4).foldl (fun e q => passAll q e) e
      let e := (List.range 4).foldl (fun e s =>
        (List.range 4).foldl (fun e d => deliverFrom s d e) e) e
      let all : List (Quad × Quad) :=
        (List.range 16).map (fun k => (BitVec.ofNat 2 (k / 4), BitVec.ofNat 2 (k % 4)))
      let e := modHeat (fun h => { h with markers := all }) e
      let e := h.rows.foldl (fun e r => issueIfReady r e) e
      judge (finishRounds 2 e)

/-! ## Intake on a drain port (R136-R139, R312-R316, R422) -/

/-- A photo-finish capture is in progress, or commands that one held are still to be acted on (R380). -/
def frozen (e : Engine) : Bool := e.cap.busy || !e.cap.held.isEmpty

/-- Defer a command while a photo-finish capture has frozen the engine (R380). -/
def capGate (i : Instr) (f : Engine → Engine) (e : Engine) : Engine :=
  if frozen e then { e with cap := { e.cap with held := e.cap.held ++ [i] } } else f e

/-- Discard a block or word: kind 0 STRAY, 1 BAD, 2 EXCESS. -/
def discard (kind : Nat) (port : Quad) (tag : U64) (e : Engine) : Engine :=
  let e := match kind with
    | 0 => bumpSat rSPR_DRAIN_ERR 63 48 1 e
    | 1 => bumpSat rSPR_DRAIN_ERR 47 32 1 e
    | _ => bumpSat rSPR_DRAIN_ERR 31 16 1 e
  drainFault port tag (count 2 8 1 e)

def heat8 (h : Heat) : Nat := h.num.toNat % 256

/-- Largest NVALID of a format (R136). -/
def nvMax (fmt : Nat) : Nat := if fmt = 0 then 256 else if fmt ≤ 2 then 512 else 1024

/-- Verdict on a logits block, in the order of R422: none to accept, else a discard kind; the flag says
that the row's pair is broken by R172. -/
def logitsVerdict (e : Engine) (port : Quad) (tag : U64) (prev : Option (Nat × Nat × Nat)) :
    Option (Nat × Bool) :=
  let pair := bits tag 59 58
  let fmt := bits tag 57 55
  let row := bits tag 45 32
  let vb := bits tag 31 12
  let nv := bits tag 11 1
  if 4 < fmt ∨ pair = 3 ∨ nv = 0 ∨ nvMax fmt < nv ∨ bit tag 0 then some (1, false)
  else match e.heat.cur with
    | none => some (0, false)
    | some h =>
      if bits tag 53 46 ≠ heat8 h ∨ h.nrows ≤ row then some (0, false)
      else match rowAt h row with
        | none => some (0, false)
        | some r =>
          if !r.logits || (pair == 1 && !r.paired) || (pair == 2 && (roundOn e r).isNone) then some (0, false)
          else if h.vocab < vb + nv then some (1, false)
          else if pair = 1 ∧ prev ≠ some (row, vb, nv) then some (1, true)
          else
            let q := (streamAt h row pair).at port.toNat
            let w := waitingOf e port.toNat row pair
            if q.last || w.any (fun b => bit b.1 54) || h.done.getLsbD port.toNat then some (0, false)
            else if h.vocab < q.part.count + (w.map (fun b => bits b.1 11 1)).sum + nv then some (2, false) else none

def logitsIn (port : Quad) (tag : U64) (pl : List Byte) (prev : Option (Nat × Nat × Nat)) (e : Engine) : Engine :=
  match logitsVerdict e port tag prev with
  | none => setBuf port.toNat (bufOf e port.toNat ++ [(tag, pl)]) e
  | some (k, brk) =>
    let e := discard k port tag e
    if brk then match e.heat.cur with
      | some h => setStream { streamAt h (bits tag 45 32) 1 with broken := true } e
      | none => e
    else e
/-- A step-done acts at its registration (R43, R140, R314). -/
def stepDoneIn (port : Quad) (tag : U64) (e : Engine) : Engine :=
  if bits tag 29 0 ≠ 0 ∨ bits tag 59 54 ≠ 0 then discard 1 port tag e
  else match e.heat.cur with
    | none => discard 0 port tag e
    | some h =>
      if bits tag 53 46 ≠ heat8 h || h.done.getLsbD port.toNat then discard 0 port tag e
      else
        let e := modHeat (fun h => { h with
          done := h.done ||| (1#4 <<< port.toNat), wvers := h.wvers ++ [(port, BitVec.ofNat 16 (bits tag 45 30))],
          markers := if (bufOf e port.toNat).isEmpty then h.markers ++ [(port, port)] else h.markers }) e
        let e := if (h.done ||| (1#4 <<< port.toNat)) = 0xF then stepKv e else e
        judge e

def addWord (port : Quad) (w : Word) (e : Engine) : Engine :=
  { e with port := { e.port with words := e.port.words ++ [(port, w)] } }

def stashIn (port : Quad) (tag : U64) (pl : List Byte) (e : Engine) : Engine :=
  if bits tag 45 0 ≠ 0 ∨ bits tag 59 54 ≠ 0 then discard 1 port tag e
  else addWord port (.stash (BitVec.ofNat 64 (fieldAt pl 0 8)) (BitVec.ofNat 64 (fieldAt pl 8 8))) e

/-- Lane words (R296, R316): REGION and STEP are status words, the reports external events. -/
def laneIn (port : Quad) (tag : U64) (pl : List Byte) (e : Engine) : Engine :=
  let lane := bits tag 45 40
  let kind := bits tag 39 36
  if bits tag 35 0 ≠ 0 ∨ bits tag 59 54 ≠ 0 ∨ kind = 0 ∨ 5 < kind then discard 1 port tag e
  else
    let heatOk := match e.heat.cur with
      | some h => bits tag 53 46 == heat8 h
      | none => false
    if kind = 2 && !heatOk then discard 0 port tag e
    else if lane % 4 ≠ port.toNat then discard 1 port tag e
    else match kind with
      | 1 => addWord port (.region lane (BitVec.ofNat 32 (fieldAt pl 0 4))) e
      | 2 => match e.heat.cur with
        | some h =>
          if h.done = 0xF || h.rows.isEmpty || (tget? h.stepAt lane).isSome then e
          else addWord port (.step lane h.stride h.cost h.model)
            (modHeat (fun h => { h with stepAt := tset h.stepAt lane e.time.num }) e)
        | none => e
      | k => addExt (.lane k lane) e

/-- Whether an fp32 value is a NaN or negative: such an amax is not entered (R278). -/
def amaxBad (v : U32) : Bool := fNan v || (fSign v && !fZero v)

/-- Amax and digest words (R316, R422). -/
def tableWordIn (digest : Bool) (port : Quad) (tag : U64) (pl : List Byte) (e : Engine) : Engine :=
  let n := bits tag 7 0
  if bits tag 45 8 ≠ 0 ∨ bits tag 59 54 ≠ 0 ∨ n = 0 ∨ 128 < n then discard 1 port tag e
  else match e.heat.cur with
    | none => discard 0 port tag e
    | some h =>
      if bits tag 53 46 ≠ heat8 h ∨ !h.learn then discard 0 port tag e
      else (List.range n).foldl (fun e i =>
        let t := fieldAt pl (8 * i) 2
        let v := BitVec.ofNat 32 (fieldAt pl (8 * i + 4) 4)
        if 4096 ≤ t then e
        else if digest then addWord port (.digest h.num t (byteAt pl (8 * i + 2)) v) e
        else addWord port (.amax h.num t v) e) e

/-- One block or word on a drain port (R312, R313, R422). -/
def drainIn (port : Quad) (tag : U64) (pl : List Byte) (e : Engine) : Engine :=
  let crd := tget 128 e.port.crd port.toNat
  if crd = 0 then
    drainFault port tag (bumpSat rCP_PORT_ERR 47 32 1 e)
  else
    let prev := match e.heat.cur with
      | some h => tget? h.prevBlk port.toNat
      | none => none
    let ty := bits tag 63 60
    let e := modHeat (fun h => { h with
      prevBlk := if ty = 1 ∧ bits tag 59 58 = 0 then
          tset h.prevBlk port.toNat (bits tag 45 32, bits tag 31 12, bits tag 11 1)
        else tdel h.prevBlk port.toNat }) e
    let e := match ty with
      | 1 => logitsIn port tag pl prev e
      | 2 => stepDoneIn port tag e
      | 3 => stashIn port tag pl e
      | 4 => laneIn port tag pl e
      | 5 => tableWordIn false port tag pl e
      | 6 => tableWordIn true port tag pl e
      | _ => discard 1 port tag e
    drainPass port.toNat { e with port := { e.port with crd := tset e.port.crd port.toNat (crd - 1) } }

/-! ## The commands of the drain side and the sampler -/

def execLogitsBlock (port : Quad) (tag : U64) (payload : List Byte) (s : State) :=
  onEng (capGate (.logitsBlock port tag payload) (drainIn port tag payload)) s

def execStepDone (port : Quad) (tag : U64) (s : State) :=
  onEng (capGate (.stepDone port tag) (drainIn port tag [])) s

def execStashWord (port : Quad) (tag : U64) (payload : List Byte) (s : State) :=
  onEng (capGate (.stashWord port tag payload) (drainIn port tag payload)) s

def execLaneWord (port : Quad) (tag : U64) (payload : List Byte) (s : State) :=
  onEng (capGate (.laneWord port tag payload) (drainIn port tag payload)) s

def execLaneReport (port : Quad) (tag : U64) (payload : List Byte) (s : State) :=
  onEng (capGate (.laneReport port tag payload) (drainIn port tag payload)) s

def execAmaxWord (port : Quad) (tag : U64) (payload : List Byte) (s : State) :=
  onEng (capGate (.amaxWord port tag payload) (drainIn port tag payload)) s

def execDigestWord (port : Quad) (tag : U64) (payload : List Byte) (s : State) :=
  onEng (capGate (.digestWord port tag payload) (drainIn port tag payload)) s

/-- A partial that was sent reaches its home quadrant by a route that works, with those sent there before it (R28-R30,
R139). -/
def opPartialArrival (src : Quad) (row : RowNo) (pair : BitVec 2) (e : Engine) : Engine :=
  let it (f : Flight) : Bool := f.src == src && f.row == row.toNat && f.pair == pair.toNat
  let dst := homeQ row.toNat
  if !reach e src.toNat dst then e
  else match e.heat.flights.find? it with
    | none => e
    | some x =>
      if !x.sent then e
      else
        let upTo := e.heat.flights.takeWhile (fun f => !it f)
        let rest := e.heat.flights.drop (upTo.length + 1)
        let mine := upTo.filter (fun f => f.src == src && homeQ f.row == dst)
        let e := { e with heat := { e.heat with
          flights := sendMore [] (upTo.filter (fun f => f.src != src || homeQ f.row != dst) ++ rest) } }
        mergeIn x (mine.foldl (fun e f => mergeIn f e) e)

def execPartialArrival (src : Quad) (row : RowNo) (pair : BitVec 2) (s : State) :=
  onEng (capGate (.partialArrival src row pair) (opPartialArrival src row pair)) s

/-- A done marker arrives behind the partials its sender sent (R29, R140). -/
def opDoneMarker (src dst : Quad) (e : Engine) : Engine :=
  match e.heat.cur with
  | none => e
  | some h =>
    if !h.done.getLsbD src.toNat || h.markers.contains (src, dst) || !(bufOf e src.toNat).isEmpty
        || !reach e src.toNat dst.toNat then e
    else
      let e := deliverFrom src.toNat dst.toNat e
      judge (modHeat (fun h => { h with markers := h.markers ++ [(src, dst)] }) e)

def execDoneMarker (src dst : Quad) (s : State) :=
  onEng (capGate (.doneMarker src dst) (opDoneMarker src dst)) s

/-- Issue the records of a row, when it is complete and not yet issued. -/
def opIssueRow (row : Nat) (e : Engine) : Engine :=
  match e.heat.cur with
  | none => e
  | some h => match rowAt h row with
    | none => e
    | some r => if isVerify r then e else judge (issueIfReady r e)

def execTokenRecordIssue (row : RowNo) (s : State) := onEng (capGate (.tokenRecordIssue row) (opIssueRow row.toNat)) s

def opVerifyItem (row : Nat) (e : Engine) : Engine :=
  match e.heat.cur with
  | none => e
  | some h => match rowAt h row with
    | none => e
    | some r => if isVerify r then judge (issueIfReady r e) else e

def execVerifyItem (row : RowNo) (s : State) := onEng (capGate (.verifyItem row) (opVerifyItem row.toNat)) s

/-- Draw the children of the round open for a slot's request, when it is complete. -/
def opDraftRound (slot : Nat) (e : Engine) : Engine :=
  match reqAt e slot, e.heat.cur with
  | some q, some h =>
    match h.rows.find? (fun r => r.uid == q.w.uid && r.row == q.w.draft.lead && r.kind != 0) with
    | some r => judge (finishRound r e)
    | none => e
  | _, _ => e

def execDraftRound (slot : U16) (s : State) := onEng (capGate (.draftRound slot) (opDraftRound slot.toNat)) s

end Sys2Proof.Machine
end

