-- ==== Sys2Proof/Machine/Plans.lean ====
section
/-! DEFINITION. Command results, the policy fabric (04_request_table_and_admission.md R93-R97, R419) and
the plan store (05_heat_plans_and_manifests.md R99-R104, R123, R268). -/

namespace Sys2Proof.Machine

/-- Status, RESULT and state a command leaves (R73). -/
structure Res where
  status : Nat
  result : Nat
  eng : Engine

def done (r : Nat) (e : Engine) : Res := { status := 0, result := r, eng := e }
def refuse (st : Nat) (e : Engine) : Res := { status := st, result := 0, eng := e }

def sOK_NOOP : Nat := 0x01
def sOK_PARKED : Nat := 0x02
def sOK_FLAGGED : Nat := 0x03
def sOK_LATE : Nat := 0x04
def sBAD_VERSION : Nat := 0x12
def sBAD_PARAM : Nat := 0x13
def sBAD_ADDRESS : Nat := 0x16
def sBAD_IMAGE : Nat := 0x17
def sCAPACITY : Nat := 0x18
def sNO_SUCH_RID : Nat := 0x20
def sRID_IN_USE : Nat := 0x21
def sNO_SUCH_OBJECT : Nat := 0x22
def sQUOTA : Nat := 0x23
def sWRONG_STATE : Nat := 0x24
def sPEER_GONE : Nat := 0x25
def sIN_USE : Nat := 0x26
def sMEM_ERROR : Nat := 0x30
def sTORN : Nat := 0x32
def sABORTED : Nat := 0x33
def sINTERNAL : Nat := 0xFF

/-- Whether the CRC-32C of an image, its field at byte `off` taken as zero, is the field's value. -/
def crcOk (img : List Byte) (off : Nat) : Bool :=
  (crc32c (patch img off (zeros 4))).toNat == fieldAt img off 4

/-! ## Policy fabric -/

/-- Attributes of a request (R95, R419). -/
structure PolAttr where
  vals : List (Nat × Nat)
  fbkEn : Bool
  deriving DecidableEq, Repr

def PolAttr.at (a : PolAttr) (code : Nat) : Nat := (tget? a.vals code).getD 0

/-- A deadline as SLACK reads it. -/
def slackOf (now d : Stride) : Nat :=
  if d = noDl then 0xFFFFFFFF
  else
    let x := sdiff d now
    if x < 0 then 0 else min x.toNat 0xFFFFFFFF

/-- ADAPTER_RES: the pinned slot is resident, or there is no adapter. -/
def adapterRes (e : Engine) (aslot : Option Nat) : Nat :=
  match aslot with
  | none => 1
  | some s => match tget? e.aslots s with
    | some a => b2n a.resident
    | none => 0

/-- Attributes of a live request in a slot. -/
def attrOf (e : Engine) (slot : Nat) (r : Req) : PolAttr := {
  vals := [(0, r.tc), (1, b2n r.d.lc), (2, r.d.prio), (3, r.d.model), (4, stCode r.e.st), (5, r.e.gen),
    (6, r.d.promptLen), (7, if r.e.st = .prefilling then ctxOf r - r.e.kvpos else 0),
    (8, slackOf e.time.num r.e.dl), (9, if 1 ≤ r.e.gen then 0xFFFFFFFF else slackOf e.time.num r.e.ft),
    (10, r.e.wait), (11, adapterRes e r.w.aslot), (12, r.w.prefixHit), (13, b2n r.d.rollout),
    (14, b2n r.e.fbk), (15, b2n r.e.lateSeen), (16, slot),
    (17, if r.e.pvset then (e.pver - r.e.pverMin).toNat else 0), (18, r.d.specMax)],
  fbkEn := r.d.fallbackEn }

/-- Attributes at an ADMIT effect stride (R419). -/
def attrAdmit (e : Engine) (tc : Nat) (d : Desc) (dl ft : Stride) (aslot : Option Nat) : PolAttr := {
  vals := [(0, tc), (1, b2n d.lc), (2, d.prio), (3, d.model), (6, d.promptLen), (8, slackOf e.time.num dl),
    (9, slackOf e.time.num ft), (11, adapterRes e aslot), (13, b2n d.rollout), (16, 0xFFFFFFFF),
    (18, d.specMax)],
  fbkEn := d.fallbackEn }

/-- Results of the fabric (R93). -/
structure PolRes where
  elig : Bool
  score : Int
  evict : Int
  fbkOk : Bool
  refused : Bool
  deriving DecidableEq, Repr

def predHolds (a : PolAttr) (p : Pred) : Bool :=
  let v := a.at p.attr
  let c := p.const.toNat
  match p.op with
  | 0 => v == c
  | 1 => v != c
  | 2 => decide (v < c)
  | 3 => decide (c ≤ v)
  | 4 => v &&& c != 0
  | _ => v &&& c == 0

/-- The term of a stage. -/
def stageTerm (pol : Policy) (a : PolAttr) (s : Stage) : Int :=
  let v := if s.src = 0xFF then 1 else a.at s.src
  let x := v >>> s.shift
  if s.tlen ≠ 0 then (pol.tbl[s.table + min x (s.tlen - 1)]?).getD 0 else sat32 (s.weight * (x : Int))

/-- Run stages in index order; `adm` runs only stages of kind ADMIT and STOP. -/
def runStages (pol : Policy) (a : PolAttr) (adm : Bool) : List Stage → PolRes → PolRes
  | [], r => r
  | s :: ss, r =>
    if (adm && !(s.kind == 4 || s.kind == 5)) || !s.preds.all (predHolds a) then
      runStages pol a adm ss r
    else
      let t := stageTerm pol a s
      match s.kind with
      | 0 => runStages pol a adm ss { r with score := sat32 (r.score + t) }
      | 1 => runStages pol a adm ss { r with elig := t != 0 }
      | 2 => runStages pol a adm ss { r with fbkOk := t != 0 }
      | 3 => runStages pol a adm ss { r with evict := sat32 (r.evict + t) }
      | 4 => runStages pol a adm ss { r with refused := r.refused || t == 0 }
      | _ => r

/-- The image the fabric evaluates: that in the PF0 of the Pacer (R25). -/
def fabric (e : Engine) : Option Policy :=
  match e.lead.pacer with
  | some p => if e.plans.pf.getLsbD p.toNat then e.pol else none
  | none => e.pol

/-- The fabric's results for a request: the image in use, or the built-in policy (R97). -/
def policyRes (e : Engine) (a : PolAttr) (adm : Bool) : PolRes :=
  let r0 : PolRes := { elig := true, score := 0, evict := 0, fbkOk := a.fbkEn, refused := false }
  match fabric e with
  | some p => runStages p a adm p.stages r0
  | none => { r0 with score := 65536 * (a.at 2 : Int) + (min (a.at 10) 65535 : Nat), evict := 255 - (a.at 2 : Int) }

def sgn32 (n : Nat) : Int := if n < 2 ^ 31 then (n : Int) else (n : Int) - 2 ^ 32

def parseStage (b : List Byte) : Stage := {
  kind := byteAt b 0,
  preds := (List.range (byteAt b 1)).map (fun n => {
    attr := byteAt b (4 + 8 * n), op := byteAt b (5 + 8 * n),
    const := BitVec.ofNat 32 (fieldAt b (8 + 8 * n) 4) }),
  src := byteAt b 36, shift := byteAt b 37, weight := sgn32 (fieldAt b 40 4), table := fieldAt b 44 4,
  tlen := fieldAt b 48 4 }

/-- A stage descriptor meets R94 and R96; `tb` is TABLE_BYTES. -/
def stageOk (tb : Nat) (b : List Byte) : Bool :=
  let np := byteAt b 1
  decide (byteAt b 0 ≤ 5) && decide (np ≤ 4) && zeroRange b 2 4
    && (List.range 4).all (fun n =>
      if n < np then decide (byteAt b (4 + 8 * n) ≤ 0x12) && decide (byteAt b (5 + 8 * n) ≤ 5)
        && zeroRange b (6 + 8 * n) (8 + 8 * n)
      else zeroRange b (4 + 8 * n) (12 + 8 * n))
    && (decide (byteAt b 36 ≤ 0x12) || byteAt b 36 == 0xFF) && decide (byteAt b 37 ≤ 31) && zeroRange b 38 40
    && decide (4 * (fieldAt b 44 4 + fieldAt b 48 4) ≤ tb) && zeroRange b 52 64

/-- Descriptor of stage `i` of a policy image. -/
def stageAt (img : List Byte) (i : Nat) : List Byte := (img.drop (64 + 64 * i)).take 64

/-- The status a policy image of `bytes` bytes gets, 0 for a good one (R65, R96). -/
def policyCheck (img : List Byte) (bytes : Nat) : Nat :=
  let ns := byteAt img 6
  let tOff := fieldAt img 16 4
  let tb := fieldAt img 20 4
  if bytes < 64 then sBAD_IMAGE
  else if byteAt img 4 ≠ 4 then sBAD_VERSION
  else if fieldAt img 0 4 ≠ 0x7A504F4C ∨ fieldAt img 8 4 ≠ bytes ∨ bytes < 64 + 64 * ns ∨ !crcOk img 12
      ∨ ns = 0 ∨ 16 < ns ∨ tOff % 4 ≠ 0 ∨ tOff < 64 + 64 * ns ∨ bytes < tOff + tb ∨ tb % 4 ≠ 0
      ∨ !zeroRange img 7 8 ∨ !zeroRange img 24 64 ∨ !(List.range ns).all (fun i => stageOk tb (stageAt img i)) then
    sBAD_IMAGE
  else 0

/-- The policy of a good image (R94, R96). -/
def policyOf (img : List Byte) : Policy :=
  let ns := byteAt img 6
  { stages := (List.range ns).map (fun i => parseStage (stageAt img i)),
    tbl := (List.range (fieldAt img 20 4 / 4)).map (fun i => sgn32 (fieldAt img (fieldAt img 16 4 + 4 * i) 4)),
    digest := BitVec.ofNat 48 (byteAt img 5 * 2 ^ 40 + ns * 2 ^ 32 + fieldAt img 12 4) }

/-- POLICY_LOAD (R25, R65, R94, R96). -/
def opPolicyLoad (addr bytes : Nat) (err : Bool) (e : Engine) : Res :=
  if err || badRange e addr bytes then refuse sMEM_ERROR e
  else
    let img := rd e addr bytes
    if policyCheck img bytes ≠ 0 then refuse (policyCheck img bytes) e
    else done (policyOf img).digest.toNat { e with
      pol := some (policyOf img), images := tset e.images 256 (addr, bytes, 0), plans := { e.plans with pf := 0xF } }

/-! ## Plan images (R99-R101) -/

/-- Rows of one item of a class (R100). -/
def rowsPer (c : RowClass) : Nat := if c.kind = 3 ∨ c.kind = 4 then c.draft + 1 else 1

def parseClass (b : List Byte) : RowClass := {
  kind := byteAt b 0, draft := byteAt b 1, count := fieldAt b 2 2, chunk := fieldAt b 4 2,
  first := fieldAt b 6 2, ctxMax := fieldAt b 8 4, beOnly := nbit (byteAt b 12) 1, lcOnly := nbit (byteAt b 12) 0 }

def parsePlan (b : List Byte) : Plan := {
  learn := byteAt b 3 == 1, rows := fieldAt b 4 2, cost := fieldAt b 8 4, dfloor := fieldAt b 12 4,
  stash := fieldAt b 16 8, memb := fieldAt b 24 8,
  cls := (List.range (byteAt b 2)).map (fun c => parseClass (b.drop (64 + 32 * c))) }

def classOk (b : List Byte) : Bool :=
  let c := parseClass b
  decide (1 ≤ c.kind ∧ c.kind ≤ 5)
    && (match c.kind with
      | 3 => decide (1 ≤ c.draft ∧ c.draft ≤ 8)
      | 4 => decide (2 ≤ c.draft ∧ c.draft ≤ 64)
      | _ => c.draft == 0)
    && decide (1 ≤ c.count)
    && (if c.kind = 2 ∨ c.kind = 5 then decide (1 ≤ c.chunk ∧ c.chunk ≤ 8192) else c.chunk == 0)
    && decide (1 ≤ c.ctxMax ∧ c.ctxMax ≤ 1048576) && !(c.beOnly && c.lcOnly) && decide (byteAt b 12 < 4)
    && zeroRange b 13 32

/-- Row layout contiguous from `next` to `rows`. -/
def layoutOk (rows : Nat) : List RowClass → Nat → Bool
  | [], next => next == rows
  | c :: cs, next => c.first == next && layoutOk rows cs (next + c.count * rowsPer c)

def planOk (i : Nat) (b : List Byte) : Bool :=
  let n := byteAt b 2
  fieldAt b 0 2 == i && decide (1 ≤ n ∧ n ≤ 30) && decide (byteAt b 3 ≤ 1) && decide (1 ≤ fieldAt b 4 2)
    && zeroRange b 6 8 && decide (1 ≤ fieldAt b 8 4) && zeroRange b 32 64
    && (List.range n).all (fun c => classOk ((b.drop (64 + 32 * c)).take 32))
    && zeroRange b (64 + 32 * n) 1024 && layoutOk (fieldAt b 4 2) (parsePlan b).cls 0

/-! ## The plan store -/

/-- The place of heat plan `p`: an entry of the share of its quadrant, 1,024 entries in each (R23, R25). -/
def planKey (p : Nat) : Nat := (planHome p).1 * 1024 + (planHome p).2

def planAt (e : Engine) (p : Nat) : Option Plan := tget? e.plans.store (planKey p)

/-- Write plans into store entries; free entries. -/
def storePut (xs : List (Nat × Plan)) (t : Table Plan) : Table Plan := xs.foldl (fun t x => tset t (planKey x.1) x.2) t
def storeDrop (ps : List Nat) (t : Table Plan) : Table Plan := ps.foldl (fun t p => tdel t (planKey p)) t

/-- The directory of the store: the entries that belong to models (R25). -/
def storeUsed (e : Engine) : List Nat := e.models.flatMap (fun m => m.2.plans)

/-- Entries neither held by a model nor reserved. -/
def storeFree (e : Engine) (n : Nat) : List Nat :=
  let used := sortBy (fun a b => decide (a < b)) (storeUsed e ++ e.plans.resv.flatMap (·.entries))
  freeFrom used 0 4096 n

/-- HEAT_PLANS.FREE. -/
def storeFreeCount (e : Engine) : Nat :=
  4096 - (storeUsed e).length - (e.plans.resv.map (fun r => r.entries.length)).sum

/-- Reserve entries for a PLAN_LOAD at its fetch (R103). -/
def planReserve (ridx : U32) (count : Nat) (e : Engine) : Engine :=
  { e with plans := { e.plans with resv := e.plans.resv ++ [{ ridx := ridx, entries := storeFree e count }] } }

/-- Release a reservation. -/
def planRelease (ridx : U32) (e : Engine) : Engine :=
  { e with plans := { e.plans with resv := e.plans.resv.filter (fun r => r.ridx != ridx) } }

/-- DEDUCED, log entry 76. -/
def noPlanCost : Nat := 2 ^ 47 - 1

/-- Projection and learn constants of a model's plans (R123, R268). -/
def withConsts (ps : List Plan) (m : Model) : Model :=
  let gen := ps.filter (fun p => !p.learn)
  let dec := gen.filter (fun p => p.cls.any (fun c => c.kind == 1 && !c.beOnly))
  let pf (c : RowClass) : Bool := c.kind == 2 && !c.beOnly
  let pchunk := maxOf (gen.flatMap (fun p => (p.cls.filter pf).map (·.chunk))) 1
  let pre := gen.filter (fun p => p.cls.any (fun c => pf c && c.chunk == pchunk))
  let lrn := ps.filter (fun p => p.learn && p.cls.any (fun c => c.kind == 5))
  let lc (p : Plan) : List RowClass := p.cls.filter (fun c => c.kind == 5)
  { m with
    dstep := minOf (dec.map (·.cost)) noPlanCost, pchunk := pchunk,
    pstep := minOf (pre.map (·.cost)) noPlanCost,
    lch := if lrn.isEmpty then none else some (minOf (lrn.flatMap (fun p => (lc p).map (·.chunk))) 0),
    lspt := maxOf (lrn.map (fun p => ceilDiv p.stash ((lc p).map (fun c => c.count * c.chunk)).sum)) 0 }

/-- Plan `i` of a plan image. -/
def planEnt (img : List Byte) (i : Nat) : List Byte := (img.drop (64 + 1024 * i)).take 1024

/-- The status a plan image of `cnt` plans of a model gets from its own checks, 0 for a good one (R65, R99-R101). -/
def planCheck (img : List Byte) (model cnt : Nat) : Nat :=
  if byteAt img 4 ≠ 4 then sBAD_VERSION
  else if fieldAt img 0 4 ≠ 0x7A485054 ∨ fieldAt img 6 2 ≠ cnt ∨ byteAt img 8 ≠ model ∨ !crcOk img 12
      ∨ !zeroRange img 9 12 ∨ !zeroRange img 16 64 ∨ !(List.range cnt).all (fun i => planOk i (planEnt img i)) then
    sBAD_IMAGE
  else 0

def imagePlans (img : List Byte) (cnt : Nat) : List Plan := (List.range cnt).map (fun i => parsePlan (planEnt img i))

/-- PLAN_LOAD at its effect stride (R101, R102). `resv` are the entries reserved for it. -/
def planLoad (addr model cnt : Nat) (resv : List Nat) (err : Bool) (e : Engine) : Res :=
  let bytes := 64 + 1024 * cnt
  if err || badRange e addr bytes then refuse sMEM_ERROR e
  else
    let img := rd e addr bytes
    if planCheck img model cnt ≠ 0 then refuse (planCheck img model cnt) e
    else match tget? e.models model with
      | none => refuse sNO_SUCH_OBJECT e
      | some m =>
        let ps := imagePlans img cnt
        if ps.any (fun p => decide (16384 < p.rows)) ∨ resv.length + m.plans.length < cnt then
          refuse sCAPACITY e
        else
          let old := sortBy (fun a b => decide (a < b)) m.plans
          let entries := (resv ++ old).take cnt
          let store := storePut (entries.zip ps) (storeDrop m.plans e.plans.store)
          let m' := withConsts ps { m with plans := entries }
          done cnt { e with plans := { e.plans with store := store }, models := tset e.models model m',
                            images := tset e.images model (addr, bytes, cnt) }

/-- PLAN_LOAD of the packet at ring index `ridx`; a load that no fetch reserved for reserves now. -/
def opPlanLoad (ridx : U32) (addr model cnt : Nat) (err : Bool) (e : Engine) : Res :=
  let resv := match e.plans.resv.find? (fun r => r.ridx == ridx) with
    | some r => r.entries
    | none => storeFree e cnt
  planLoad addr model cnt resv err (planRelease ridx e)

end Sys2Proof.Machine
end

