-- ==== Sys2Proof/Machine/Heat.lean ====
section
/-! DEFINITION. The generate heat: the late rule, projection and fallback (06_deadlines_and_fallback.md
R123-R135), candidates, plan fill and selection, the manifest (05_heat_plans_and_manifests.md R105-R122),
virtual time and waits (R91, R92). -/

namespace Sys2Proof.Machine

/-- Requests in PREFILLING or RUNNING, by slot. -/
def liveReqs (e : Engine) : Table Req := e.rq.slots.filter (fun p => active p.2.e.st)

/-- Effective model of a request (R106) (DEDUCED, log entry 75). -/
def effModel (e : Engine) (r : Req) : Option Nat :=
  if r.e.fbk then (pacerOf e r.d.model).map (·.1) else some r.d.model

/-- A model's plans of one phase, in list order. -/
def plansOf (e : Engine) (m : Nat) (learn : Bool) : List (Nat × Plan) :=
  match tget? e.models m with
  | none => []
  | some x => x.plans.filterMap (fun p => match planAt e p with
    | some pl => if pl.learn == learn then some (p, pl) else none
    | none => none)

/-- The order in which requests are parked for want of slots: BE before LC, the higher EVICT first, then the higher
RSLOT (R83). -/
def parkBefore (e : Engine) (a b : Nat × Req) : Bool :=
  let ev (x : Nat × Req) : Int := (policyRes e (attrOf e x.1 x.2) false).evict
  if a.2.d.lc != b.2.d.lc then b.2.d.lc
  else if ev a ≠ ev b then decide (ev b < ev a) else decide (b.1 < a.1)

/-! ## Deadlines (R123-R135) -/

/-- DSTEP, PCHUNK and PSTEP of a model (R123). -/
structure Consts where
  dstep : Nat
  pchunk : Nat
  pstep : Nat

def constsOf (e : Engine) (m : Option Nat) : Consts :=
  match m.bind (tget? e.models) with
  | some x => { dstep := x.dstep, pchunk := x.pchunk, pstep := x.pstep }
  | none => { dstep := noPlanCost, pchunk := 1, pstep := noPlanCost }

def projFirst (r : Req) (k : Consts) : Nat :=
  min maxStr (if r.e.st = .prefilling then ceilDiv (ctxOf r - r.e.kvpos) k.pchunk * k.pstep else k.dstep)

def projDone (r : Req) (k : Consts) : Nat :=
  let n := r.d.maxTokens - r.e.gen
  min maxStr (if r.e.st = .prefilling then projFirst r k + (n - 1) * k.dstep else n * k.dstep)

/-- At risk for the first token, and for the last (R126). -/
def riskOf (e : Engine) (r : Req) : Bool × Bool :=
  let k := constsOf e (effModel e r)
  let mg := regN e rRQT_DL_CTRL 19 0
  let past (d : Stride) (p : Nat) : Bool := d != noDl && decide (sdiff d e.time.num < ((p + mg : Nat) : Int))
  (r.e.gen == 0 && past r.e.ft (projFirst r k), past r.e.dl (projDone r k))

/-- The conditions of R127 other than at-risk, FALLBACK_OK and the comparison. -/
def canFall (e : Engine) (r : Req) : Bool :=
  !r.e.fbk && regB e rRQT_DL_CTRL 31 && r.e.st == .running && decide (r.e.kvpos ≤ r.w.draft.pkv)
    && (match pacerOf e r.d.model with
      | some (p, _) => !(plansOf e p false).isEmpty
      | none => false)

def modDl (tc : Nat) (f : TDl → TDl) (e : Engine) : Engine := modTen tc (fun t => { t with dl := f t.dl }) e

/-- FBK becomes 1: the held draft goes (R164), the fallback is counted (R134, R365). -/
def fallBack (slot tc : Nat) (e : Engine) : Engine :=
  let e := modReq slot (fun r => { r with
    e := { r.e with fbk := true }, w := { r.w with draft := r.w.draft.drop } }) e
  let e := bumpOpen (rRQT_DL_TCNT tc) 63 32 1 (bumpOpen rRQT_DL_FBK 31 0 1 e)
  count 3 9 1 (tcount tc 7 1 (modDl tc (fun d => { d with fbk := d.fbk + 1 }) e))

/-- The LATE rule for one request (R132, R133). -/
def lateRule (slot : Nat) (e : Engine) : Engine :=
  match reqAt e slot with
  | none => e
  | some r =>
    if !r.w.lateHeat then e
    else
      let e := modWork slot (fun w => { w with lateHeat := false }) e
      if !active r.e.st then e
      else match r.d.lateRule with
        | 1 =>
          if r.e.fbk then e
          else if canFall e r then fallBack slot r.tc e
          else bumpOpen rRQT_DL_NOFBK 31 0 1 e
        | 2 => bumpOpen rRQT_DL_LCANCEL 31 0 1 (endSlot slot .cancelled 6 0 e)
        | _ => e

/-- The LATE rule at a boundary; a request that a turn has just parked is past it (R79, R132). -/
def lateRules (e : Engine) : Engine :=
  let e := (tkeys e.rq.slots).foldl (fun e s => lateRule s e) e
  { e with rq := { e.rq with parked := e.rq.parked.map (fun p =>
    { p with req := { p.req with w := { p.req.w with lateHeat := false } } }) } }

/-- A slot's request fell back from `e` to `e'`. -/
def fellBack (e e' : Engine) (slot : Nat) : Bool :=
  match reqAt e slot, reqAt e' slot with
  | some a, some b => !a.e.fbk && b.e.fbk
  | _, _ => false

/-- A request at risk at this boundary: slot, risk of the first and of the last token. -/
abbrev Risk := Nat × Bool × Bool

/-- Project every request that R124 names but those of `skip`, which the LATE rule has moved (R133); each finding counts
once (R134). -/
def project (skip : Nat → Bool) (e : Engine) : Engine × List Risk :=
  let rs := (liveReqs e).filterMap (fun p =>
    if p.2.d.lc && !skip p.1 then
      let x := riskOf e p.2
      if x.1 || x.2 then some (p.1, x.1, x.2) else none
    else none)
  (bumpOpen rRQT_DL_RISK 31 0 rs.length e, rs)

/-- Fallback of the requests at risk (R127, R128); `ok` gives FALLBACK_OK by slot. -/
def fallbacks (ok : Nat → Bool) (rs : List Risk) (e : Engine) : Engine :=
  rs.foldl (fun e x => match reqAt e x.1 with
    | none => e
    | some r =>
      if r.e.fbk then e
      else
        let own := constsOf e (some r.d.model)
        let pac := constsOf e ((pacerOf e r.d.model).map (·.1))
        if ok x.1 && canFall e r && (!x.2.1 || decide (projFirst r pac < projFirst r own))
            && (!x.2.2 || decide (projDone r pac < projDone r own)) then fallBack x.1 r.tc e
        else bumpOpen rRQT_DL_NOFBK 31 0 1 (modDl r.tc (fun d => { d with risk := d.risk + 1 }) e)) e

/-- The deadline interrupt of one tenant (R135). -/
def dlIrq (tc : Nat) (e : Engine) : Engine :=
  let d := (ten e tc).dl
  let o := rRQT_DL_TIRQ tc
  let hit := (regB e o 7 && d.late != 0) || (regB e o 6 && d.fbk != 0) || (regB e o 5 && d.risk != 0)
  if d.late = 0 ∧ d.fbk = 0 ∧ d.risk = 0 then e
  else
    let e := modDl tc (fun _ => { late := 0, fbk := 0, risk := 0 }) e
    if hit then raiseVec (.tv (BitVec.ofNat 8 tc) (BitVec.ofNat 3 (regN e o 2 0))) e else e

def dlIrqs (e : Engine) : Engine := (tenants e).foldl (fun e tc => dlIrq tc e) e

/-! ## Candidates (R91, R92, R259, R264) -/

/-- A candidate: its slot, its record, its SCORE, whether it is of the LC phase. -/
structure Cnd where
  slot : Nat
  r : Req
  score : Int
  lc : Bool
  deriving DecidableEq, Repr

/-- PVER_AGE beyond the tenant's CAP (R259). -/
def stale (e : Engine) (r : Req) : Bool :=
  let cap := (ten e r.tc).learn.cap
  r.d.rollout && cap != 0 && decide (cap < (if r.e.pvset then (e.pver - r.e.pverMin).toNat else 0))

/-- Each stale request counts once per boundary, whichever live state it is in (R259). -/
def countStale (e : Engine) : Engine :=
  (e.rq.slots.map (·.2) ++ e.rq.parked.map (·.req)).foldl (fun e r =>
    if stale e r && !terminal r.e.st then bumpOpen (rTRN_TSTAT r.tc) 63 32 1 e else e) e

def cndLt (a b : Cnd) : Bool := decide (b.score < a.score) || (a.score == b.score && decide (a.slot < b.slot))

/-- A tenant in the BE merge: its number, provisional VT, step, candidates left. -/
structure BeQ where
  tc : Nat
  vt : U64
  add : Nat
  cs : List Cnd

def beMin : List BeQ → Option BeQ
  | [] => none
  | x :: xs => match beMin xs with
    | none => some x
    | some y => if y.vt.toNat < x.vt.toNat then some y else some x

/-- Merge by smallest provisional VT, ties to the lower TC (R92). -/
def beMerge : Nat → List BeQ → List Cnd
  | 0, _ => []
  | fuel + 1, qs =>
    match beMin (qs.filter (fun q => !q.cs.isEmpty)) with
    | none => []
    | some q => match q.cs with
      | [] => []
      | c :: cs => c :: beMerge fuel (qs.map (fun x =>
          if x.tc = q.tc then { x with vt := x.vt + BitVec.ofNat 64 x.add, cs := cs } else x))

/-- What a tenant of BE_WEIGHT `w` advances its VT by per row. -/
def vtStep (w : Nat) : Nat := if w = 0 then 0 else 2 ^ 24 / w

/-- The ordered candidate list (R91): LC phase, then BE phase. -/
def candidates (e : Engine) (res : Nat → PolRes) : List Cnd :=
  let all := (liveReqs e).filterMap (fun p =>
    if stale e p.2 || p.2.e.theld || !(res p.1).elig then none
    else some ({ slot := p.1, r := p.2, score := (res p.1).score, lc := false } : Cnd))
  let tcs := sortBy (fun a b => decide (a < b)) (all.map (·.r.tc)).eraseDups
  let mine (tc : Nat) (lc : Bool) : List Cnd := sortBy cndLt (all.filter (fun c => c.r.tc == tc && c.r.d.lc == lc))
  let share (tc : Nat) : Nat := (ten e tc).qos.lcShare
  let lc := tcs.flatMap (fun tc => ((mine tc true).take (share tc)).map (fun c => { c with lc := true }))
  let be (tc : Nat) : List Cnd := sortBy cndLt ((mine tc true).drop (share tc) ++ mine tc false)
  let w (tc : Nat) : Nat := (ten e tc).qos.beWeight
  let qs := (tcs.filter (fun tc => w tc != 0)).map (fun tc =>
    ({ tc := tc, vt := (ten e tc).vt, add := vtStep (w tc), cs := be tc } : BeQ))
  sortBy cndLt lc ++ beMerge all.length qs ++ (tcs.filter (fun tc => w tc == 0)).flatMap be

/-! ## Fit and fill (R107-R110, R214, R249, R266) -/

/-- First-child chain of a draft, from the children of node `n` (R171, R185). -/
def chainNodes (nodes : List DNode) : Nat → Nat → List Nat
  | 0, _ => []
  | fuel + 1, n => match nodes.findIdx? (fun x => x.parent == n) with
    | some i => (i + 1) :: chainNodes nodes fuel (i + 1)
    | none => []

def chainFrom (d : Draft) : List Nat := chainNodes d.nodes d.nodes.length 0

/-- Draft nodes of an item, in the order of its followers. -/
def itemNodes (r : Req) (c : RowClass) : List Nat :=
  if c.kind = 3 then (chainFrom r.w.draft).take c.draft else (List.range c.draft).map (· + 1)

def chunkLen (r : Req) (c : RowClass) : Nat := min c.chunk (ctxOf r - r.e.kvpos)

/-- Condition of R107 for the class kind, and the CLASS flags; `spec` is SPR_SPEC_CTRL.EN, without which no draft is held
(R164, R185). -/
def kindFits (spec : Bool) (r : Req) (c : RowClass) : Bool :=
  !(c.beOnly && r.d.lc) && !(c.lcOnly && !r.d.lc) && (match c.kind with
    | 1 => r.e.st == .running && decide (ctxOf r ≤ c.ctxMax)
    | 2 => r.e.st == .prefilling && decide (r.e.kvpos + chunkLen r c ≤ c.ctxMax)
    | 3 => spec && r.e.st == .running && !r.e.fbk && decide (c.draft ≤ r.d.specMax)
        && decide (c.draft ≤ (chainFrom r.w.draft).length) && decide (ctxOf r + c.draft ≤ c.ctxMax)
    | 4 => spec && r.e.st == .running && !r.e.fbk && decide (c.draft ≤ r.d.specMax)
        && decide (c.draft ≤ r.w.draft.nodes.length) && decide (ctxOf r + c.draft ≤ c.ctxMax)
    | _ => false)

/-- Positions an item's rows write up to, as a count (R214). -/
def itemEnd (r : Req) (c : RowClass) : Nat :=
  match c.kind with
  | 2 => r.e.kvpos + chunkLen r c
  | 3 | 4 => ctxOf r + maxOf ((itemNodes r c).map (nodeDepth r.w.draft.nodes)) 0
  | _ => ctxOf r

/-- Blocks and pages an item needs; a request that fell back takes none (R216). -/
def itemNeed (r : Req) (c : RowClass) : Nat × Nat :=
  if r.e.fbk then (0, 0) else needBlks r.w.table.length r.w.pages.length (ceilDiv (itemEnd r c) 32)

/-- Tokens an item computes. -/
def itemTok (r : Req) (c : RowClass) : Nat := if c.kind = 2 then chunkLen r c else rowsPer c

/-- An item placed: candidate, class number, class, item number. -/
structure Placed where
  q : Cnd
  cls : Nat
  c : RowClass
  item : Nat

/-- A fill under way: items per class, adapter slots, items placed, blocks and pages needed, rollouts placed
by tenant, candidates refused for KV alone and for residency alone, slots held for want of store room. -/
structure Fill where
  used : List Nat
  adps : List Nat
  placed : List Placed
  blks : Nat
  pgs : Nat
  ro : Table Nat
  kvfull : Nat
  nores : Nat
  held : List Nat

def Fill.empty (n : Nat) : Fill :=
  { used := List.replicate n 0, adps := [], placed := [], blks := 0, pgs := 0, ro := [], kvfull := 0,
    nores := 0, held := [] }

/-- Adapter slot whose rows need a segment (R129, R250). -/
def segSlot (r : Req) : Option Nat := if r.e.fbk then none else r.w.aslot

/-- The pinned version is resident, or none is needed (R108). -/
def resident (e : Engine) (r : Req) : Bool :=
  match segSlot r with
  | none => true
  | some s => match tget? e.aslots s with
    | some a => a.resident
    | none => false

/-- Store room for another rollout of the tenant (R266); no store, no hold. -/
def storeRoom (e : Engine) (f : Fill) (r : Req) : Bool :=
  !r.d.rollout || roBase e r.tc == 0 || decide (tget 0 f.ro r.tc < roFree e r.tc)

/-- First class with room that `q` fits; with `kv`, only where its blocks and pages are to be had. -/
def firstClass (spec : Bool) (room : Nat × Nat) (cs : List RowClass) (f : Fill) (q : Cnd) (kv : Bool) :
    Option (RowClass × Nat) :=
  cs.zipIdx.find? (fun x =>
    decide (f.used[x.2]?.getD 0 < x.1.count) && kindFits spec q.r x.1
      && (!kv || (decide (f.blks + (itemNeed q.r x.1).1 ≤ room.1) && decide (f.pgs + (itemNeed q.r x.1).2 ≤ room.2))))

/-- Offer one candidate to the classes of a plan (R109). -/
def fillOne (e : Engine) (model : Nat) (room : Nat × Nat) (cs : List RowClass) (f : Fill) (q : Cnd) : Fill :=
  if !storeRoom e f q.r then { f with held := q.slot :: f.held }
  else if effModel e q.r ≠ some model then f
  else
    let newAd := match segSlot q.r with
      | some s => !f.adps.contains s
      | none => false
    let adOk := !(newAd && f.adps.length == 512)
    let res := resident e q.r
    match firstClass (specOn e) room cs f q true with
    | some (c, i) =>
      if !adOk then f
      else if !res then { f with nores := f.nores + 1 }
      else { f with
        used := f.used.set i (f.used[i]?.getD 0 + 1),
        adps := if newAd then (segSlot q.r).toList ++ f.adps else f.adps,
        placed := f.placed ++ [{ q := q, cls := i, c := c, item := f.used[i]?.getD 0 }],
        blks := f.blks + (itemNeed q.r c).1, pgs := f.pgs + (itemNeed q.r c).2,
        ro := if q.r.d.rollout then tset f.ro q.r.tc (tget 0 f.ro q.r.tc + 1) else f.ro }
    | none =>
      if res && adOk && (firstClass (specOn e) room cs f q false).isSome then { f with kvfull := f.kvfull + 1 } else f

def fillPlan (e : Engine) (model : Nat) (room : Nat × Nat) (cands : List Cnd) (p : Plan) : Fill :=
  cands.foldl (fillOne e model room p.cls) (Fill.empty p.cls.length)

/-! ## Selection (R111-R113) -/

def Fill.lci (f : Fill) : Nat := (f.placed.filter (fun x => x.q.lc)).length
def Fill.items (f : Fill) : Nat := f.placed.length
def Fill.tok (f : Fill) : Nat := (f.placed.map (fun x => itemTok x.q.r x.c)).sum
def Fill.anyLc (f : Fill) : Bool := f.placed.any (fun x => x.q.r.d.lc)

/-- Budget of stash bytes in force (R274). -/
def stashBudget (e : Engine) : Nat :=
  match e.learn.owner with
  | some tc => (ten e tc).learn.stash
  | none => 2 ^ 64 - 1

/-- MEMB and, where `test` says so, STASH within their budgets (R111, R270). -/
def admissible (e : Engine) (test : Bool) (p : Plan) : Bool :=
  decide (p.memb ≤ (reg e rHEAT_MEMB).toNat)
    && (!test || (!p.learn && p.stash == 0) || decide (p.stash + e.learn.level.toNat ≤ stashBudget e))

/-- Keys of R112: `a` is chosen over an earlier `b`. -/
def planBetter (a b : Nat × Nat × Nat × Nat) : Bool :=
  let (l1, i1, t1, c1) := a
  let (l2, i2, t2, c2) := b
  decide (l2 < l1) || (l1 == l2 && (decide (i2 < i1) || (i1 == i2 && (decide (t2 < t1) || (t1 == t2 && decide (c1 < c2))))))

/-- The greatest in the order of R112, the earlier on a tie. -/
def bestBy {α : Type} (key : α → Nat × Nat × Nat × Nat) : List α → Option α
  | [] => none
  | x :: xs => some (xs.foldl (fun b y => if planBetter (key y) (key b) then y else b) x)

/-- A plan with its store entry and its fill. -/
structure Choice where
  entry : Nat
  plan : Plan
  fill : Fill

def Choice.key (c : Choice) : Nat × Nat × Nat × Nat := (c.fill.lci, c.fill.items, c.fill.tok, c.plan.cost)

/-- The heat model: effective model of the first candidate that has a PHASE 0 plan (R106). -/
def heatModel (e : Engine) : List Cnd → Option Nat
  | [] => none
  | c :: cs => match effModel e c.r with
    | some m => if (plansOf e m false).isEmpty then heatModel e cs else some m
    | none => heatModel e cs

/-- Heats run empty while EN is 0 and in STOP or its entry (R114, R347). -/
def heatsOff (e : Engine) : Bool := !regB e rHEAT_CTRL 0 || e.pwr.eng == 1 || !e.pwr.stopping.isEmpty

/-- Choose the heat model and its plan (R106, R111-R113). -/
def choosePlan (cands : List Cnd) (e : Engine) : Engine × Option (Nat × Choice) :=
  if heatsOff e then (e, none)
  else match heatModel e cands with
    | none => (e, none)
    | some m =>
      let adm := (plansOf e m false).filter (fun p => admissible e true p.2)
      if adm.isEmpty then (bumpOpen rHEAT_NOFIT 31 0 1 e, none)
      else
        let room := (freeBlks e + evictCount e, freePages e)
        let fills := adm.map (fun p =>
          ({ entry := p.1, plan := p.2, fill := fillPlan e m room cands p.2 } : Choice))
        let met := fills.filter (fun c => decide (c.plan.dfloor ≤ c.fill.tok) || c.fill.anyLc)
        let pat := cands.any (fun c => effModel e c.r == some m && decide (regN e rHEAT_CTRL 31 16 ≤ c.r.e.wait))
        if met.isEmpty && !pat then (bumpOpen rHEAT_HELD 31 0 1 e, none)
        else match bestBy Choice.key (if met.isEmpty then fills else met) with
          | none => (e, none)
          | some c => (bumpOpen rVAR_ASTAT 63 32 c.fill.nores (bumpOpen rIDX_FULL 63 32 c.fill.kvfull e), some (m, c))

/-! ## Rows and the manifest (R110, R115-R119, R198, R213, R250) -/

/-- WATCH of a row of a request (R374). -/
def watchOf (e : Engine) (r : Req) : U4 :=
  match regN e (rDBG_TWATCH r.tc) 31 30 with
  | 1 => r.w.watch &&& 0xE#4
  | 2 => r.w.watch
  | _ => 0

/-- The sampling stream key of a request (R191, R192). -/
def sampleKey (e : Engine) (r : Req) : U128 := (streamKey (ten e r.tc).tseed 0 r.d.rid r.d.salt 0).val

/-- A row of a placed item: `k` its place in the item, `n` its draft node. -/
def mkRow (e : Engine) (x : Placed) (k n : Nat) : HRow :=
  let r := x.q.r
  let lead := x.c.first + x.item * rowsPer x.c
  let ctx := ctxOf r
  let nodes := r.w.draft.nodes
  let kids := itemNodes r x.c
  let dn : DNode := match nodes[n - 1]? with
    | some d => if n = 0 then { tok := 0, parent := 0, depth := 0, lq := 0, expanded := false } else d
    | none => { tok := 0, parent := 0, depth := 0, lq := 0, expanded := false }
  let verify := x.c.kind == 3 || x.c.kind == 4
  let len := if x.c.kind = 2 then chunkLen r x.c else 1
  { row := lead + k, kind := if k = 0 then x.c.kind else 5, slot := x.q.slot, lead := lead, node := n,
    paired := verify && kids.any (fun m => match nodes[m - 1]? with
      | some d => d.parent == n
      | none => false),
    cls := x.cls, draft := if k = 0 then x.c.draft else k, tc := r.tc, rid := r.d.rid, lc := r.d.lc,
    fbk := r.e.fbk, rollout := r.d.rollout,
    logits := x.c.kind != 2 || r.e.kvpos + len == ctx, watch := watchOf e r,
    pos := if x.c.kind = 2 then r.e.kvpos else ctx - 1 + dn.depth, ntok := len,
    aseg := 0xFFFF, expset := if r.e.fbk then 0 else r.d.expset,
    btref := BitVec.ofNat 32 (tget 0 e.rq.tblgen x.q.slot * 65536 + x.q.slot), sgrant := sgrantOf e r.tc r.d.rid,
    mask := regionFor e r.tc 0 r.d.maskHandle, adj := regionFor e r.tc 1 r.d.adjHandle, chunk := none,
    d := r.d, gen := r.e.gen,
    win := if verify then lastWin (r.w.window ++ pathToks nodes 9 n) else r.w.window,
    key := sampleKey e r, dl := r.e.dl, ft := r.e.ft, uid := r.w.uid, tokn := dn.tok, parent := dn.parent,
    lq := dn.lq, expanded := dn.expanded, issued := false }

def itemRowsOf (e : Engine) (x : Placed) : List HRow :=
  let ns := if x.c.kind = 3 ∨ x.c.kind = 4 then 0 :: itemNodes x.q.r x.c else [0]
  ns.zipIdx.map (fun p => mkRow e x p.2 p.1)

/-- Number segments in the order rows first use them, and give each row its ASEG (R118, R250). -/
def segRows (e : Engine) : List HRow → List Seg → List HRow × List Seg
  | [], segs => ([], segs)
  | r :: rs, segs =>
    let slot := match reqAt e r.slot with
      | some q => segSlot q
      | none => none
    match slot.bind (fun s => (tget? e.aslots s).map (fun a => (s, a))) with
    | none =>
      let (rs', segs') := segRows e rs segs
      (r :: rs', segs')
    | some (s, a) =>
      let i := (segs.findIdx? (fun g => g.aslot == s)).getD segs.length
      let segs := if i < segs.length then
          segs.zipIdx.map (fun g => if g.2 = i then { g.1 with nrows := g.1.nrows + 1 } else g.1)
        else segs ++ [{ aslot := s, adapter := a.adapter, version := a.version, rank := a.rank, nrows := 1,
                        table := a.table }]
      let (rs', segs') := segRows e rs segs
      ({ r with aseg := i } :: rs', segs')

def Seg.bytes (g : Seg) (i : Nat) : List Byte :=
  le 2 i ++ le 2 g.aslot ++ le 2 g.adapter ++ le 2 g.version ++ le 2 g.rank ++ le 2 g.nrows ++ le 8 g.table
    ++ zeros 12

def HRow.bytes (r : HRow) : List Byte :=
  le 2 r.row ++ le 1 r.kind ++ le 1 (128 * b2n r.lc + 64 * b2n r.logits + 32 * b2n r.fbk + 16 * b2n r.rollout
      + r.watch.toNat) ++ le 1 r.tc ++ le 1 r.draft ++ le 2 r.slot ++ le 4 r.rid.toNat ++ le 4 (r.pos % 2 ^ 20)
    ++ le 2 r.ntok ++ le 2 r.aseg ++ le 2 r.expset ++ le 1 r.cls ++ [0] ++ le 4 r.btref.toNat
    ++ le 4 r.sgrant.toNat

/-- The manifest header on port `q`. -/
def headerBytes (e : Engine) (h : Heat) (q : Nat) : List Byte :=
  le 4 h.num.toNat ++ le 4 h.epoch.toNat ++ le 6 h.stride.toNat ++ le 2 (h.plan.getD 0xFFFF) ++ le 1 h.model
    ++ le 1 (128 * b2n e.pwr.vwarnNow + 64 * b2n h.learn + 32 * b2n h.csr) ++ le 2 h.nrows
    ++ le 2 ((h.nrows + 3 - q) / 4) ++ le 2 h.segs.length ++ le 4 h.cost ++ le 2 h.pver.toNat ++ le 1 q ++ [0]
    ++ le 8 e.time.stamp.toNat ++ le 4 h.rows.length ++ le 4 h.tok ++ zeros 16

/-- Units of a heat's manifest on port `q` (R117-R119, R317); a quadrant that holds a later epoch builds no rows (R394)
(DEDUCED, log entry 103). -/
def manifestUnits (e : Engine) (h : Heat) (q : Nat) : List MpUnit :=
  let hd := headerBytes e h q
  let mine := if h.epoch.toNat < (heldEpoch e q).toNat then [] else (List.range ((h.nrows + 3 - q) / 4)).map (fun k => match rowAt h (4 * k + q) with
    | some r => r.bytes
    | none => padTo 32 (le 2 (4 * k + q)))
  { record := false, som := true, bytes := hd.take 32 } :: { record := false, som := false, bytes := hd.drop 32 }
    :: (h.segs.zipIdx.map (fun g => { record := false, som := false, bytes := g.1.bytes g.2 })
      ++ mine.map (fun b => { record := false, som := false, bytes := b }))

/-- The heat summary trace record (R372). -/
def heatSummary (e : Engine) (h : Heat) : List Byte :=
  le 4 h.num.toNat ++ le 6 h.stride.toNat ++ le 2 (h.plan.getD 0xFFFF) ++ le 1 h.model
    ++ le 1 (b2n h.learn + 2 * b2n e.pwr.vwarnNow + 4 * b2n h.csr) ++ zeros 2 ++ le 4 h.rows.length ++ le 4 h.tok
    ++ le 8 e.time.stamp.toNat

/-- Tenants with a row of a heat. -/
def heatTenants (h : Heat) : List Nat := (h.rows.map (·.tc)).eraseDups

/-- Counts of a heat (R365, R244). -/
def countHeat (h : Heat) (e : Engine) : Engine :=
  let e := count 3 3 h.tok (count 3 2 h.rows.length (count 3 0 1 e))
  let e := if h.plan.isNone then count 3 1 1 e else e
  let e := if h.learn then count 3 14 1 e else e
  let e := (heatTenants h).foldl (fun e tc =>
    let mine := h.rows.filter (fun r => r.tc == tc)
    tcount tc 2 (mine.map (·.ntok)).sum (tcount tc 1 mine.length (tcount tc 0 1 e))) e
  { e with models := tmod e.models h.model (fun m => { m with useNow := m.useNow + h.rows.length }) }

/-- Emit the manifest of a heat on the four ports; the heat is then the one computing. -/
def emitHeat (h : Heat) (e : Engine) : Engine :=
  let e := { e with heat := { e.heat with
    count := e.heat.count + 1, cur := some h, flights := [],
    lastPlan := BitVec.ofNat 16 (h.plan.getD 0xFFFF), lastFilled := BitVec.ofNat 16 h.rows.length,
    lastHeat := h.num } }
  let e := (List.range 4).foldl (fun e q => mpPush q (manifestUnits e h q) e) e
  let e := if regB e rDBG_TRACE_CTRL 1 then tracePush 6 (heatSummary e h) e else e
  countHeat h e

def vocabOf (e : Engine) (m : Nat) : Nat :=
  match tget? e.models m with
  | some x => x.vocab
  | none => 0

/-- A heat of this boundary stride; without a plan it is empty (R114), and its COST is 0 (DESIGN CHOICE, log entry 114). -/
def mkHeat (e : Engine) (plan : Option (Nat × Plan)) (model : Nat) (learn csr : Bool) (pver : U16)
    (rows : List HRow) (segs : List Seg) : Heat :=
  { num := e.heat.count, epoch := e.lead.epoch, stride := e.time.num, plan := plan.map (·.1), model := model,
    learn := learn, csr := csr,
    nrows := match plan with
      | some p => p.2.rows
      | none => 0,
    cost := match plan with
      | some p => p.2.cost
      | none => 0,
    pver := pver, rows := rows, segs := segs, tok := (rows.map (·.ntok)).sum, vocab := vocabOf e model,
    streams := [], done := 0, wvers := [], markers := [], prevBlk := [], stepAt := [] }

/-- Append the blocks of the items placed, in placement order (R214). -/
def allocItems (f : Fill) (e : Engine) : Engine :=
  f.placed.foldl (fun e x => coverBlks x.q.slot (itemNeed x.q.r x.c).1 e) e

/-- Build and emit a generate heat. -/
def emitGen (c : Option (Nat × Choice)) (e : Engine) : Engine :=
  match c with
  | none => emitHeat (mkHeat e none 0xFF false false e.pver [] []) e
  | some (m, c) =>
    let e := allocItems c.fill e
    let rows := sortBy (fun (a b : HRow) => decide (a.row < b.row)) (c.fill.placed.flatMap (itemRowsOf e))
    let (rows, segs) := segRows e rows []
    emitHeat (mkHeat e (some (c.entry, c.plan)) m false false e.pver rows segs) e

/-! ## Virtual time, waits, store holds (R92, R266) -/

/-- Advance VT for the rows granted to BE-phase candidates. -/
def advanceVt (f : Fill) (e : Engine) : Engine :=
  f.placed.foldl (fun e x =>
    if x.q.lc then e
    else modTen x.q.r.tc (fun t => { t with
      vt := t.vt + BitVec.ofNat 64 (rowsPer x.c * vtStep t.qos.beWeight) }) e) e

/-- WAIT after the placement of a heat. -/
def updateWaits (granted : List Nat) (e : Engine) : Engine :=
  (liveReqs e).foldl (fun e p => modEng p.1 (fun x => { x with
    wait := if granted.contains p.1 then 0 else satAdd 16 x.wait 1 }) e) e

/-- Mark the requests the fill held for want of store room, one count each. -/
def markHeld (held : List Nat) (e : Engine) : Engine :=
  let e := held.foldl (fun e s => match reqAt e s with
    | some r => bumpOpen (rTRN_TSTAT r.tc) 31 0 1 e
    | none => e) e
  { e with rq := { e.rq with slots := e.rq.slots.map (fun p =>
      (p.1, { p.2 with w := { p.2.w with roHeld := held.contains p.1 } })) } }

/-- Steps 5 to 8 of R105 in a generate heat. `rs` are the requests at risk. -/
def genHeat (rs : List Risk) (e : Engine) : Engine :=
  let pols := (liveReqs e).map (fun p => (p.1, policyRes e (attrOf e p.1 p.2) false))
  let none_ : PolRes := { elig := false, score := 0, evict := 0, fbkOk := false, refused := false }
  let res (s : Nat) : PolRes := (tget? pols s).getD none_
  let e := fallbacks (fun s => (res s).fbkOk) rs e
  let cands := candidates e res
  let (e, c) := choosePlan cands e
  let f := match c with
    | some (_, c) => c.fill
    | none => { Fill.empty 0 with
        held := (cands.filter (fun q => !storeRoom e (Fill.empty 0) q.r)).map (·.slot) }
  let e := dlIrqs (emitGen c e)
  markHeld f.held (updateWaits (f.placed.map (·.q.slot)) (advanceVt f e))

end Sys2Proof.Machine
end

