-- ==== Sys2Proof/Machine/Relay.lean ====
section
/-! DEFINITION. The relay port, peers and offset probes (14_ports_and_partners.md R321-R329), Batons and
the effects of order reports (10_kv_prefix_and_pools.md R228-R238). -/

namespace Sys2Proof.Machine

def myId (e : Engine) : U32 := (reg e rCP_RELAY_ID).setWidth 32

def modRelay (f : RelaySt → RelaySt) (e : Engine) : Engine := { e with relay := f e.relay }

def peerAt (e : Engine) (id : U32) : Option (Nat × Peer) := e.relay.peers.find? (fun p => p.2.id == id)

/-- A row of the request of a `uid` is computing: its record is not yet issued (R69, R82). -/
def rowComputing (e : Engine) (uid : Nat) : Bool :=
  match e.heat.cur with
  | some h => h.rows.any (fun r => r.uid == uid && !isFollower r && !r.issued)
  | none => false

/-! ## Batons (R233-R238) -/

/-- The Baton header (R234). -/
def batonHeader (kind code tc : Nat) (num src dst : U32) (nblk nwin : Nat) (seed : U32) (dl ft : U64) : List Byte :=
  le 1 kind ++ le 1 code ++ le 1 tc ++ [0] ++ le 4 num.toNat ++ le 4 src.toNat ++ le 4 dst.toNat ++ le 4 nblk
    ++ le 4 nwin ++ le 4 seed.toNat ++ zeros 4 ++ le 8 dl.toNat ++ le 8 ft.toNat ++ zeros 16

/-- Send a Baton message that has no body. -/
def batonSend (kind code tc : Nat) (num peer : U32) (e : Engine) : Engine :=
  relaySend 4 peer (batonHeader kind code tc num (myId e) peer 0 0 0 0 0) e

/-- A remaining budget in nanoseconds (R235): all ones for none, 0 when passed. -/
def remNs (e : Engine) (d : Stride) : U64 :=
  if d = noDl then 0xFFFFFFFFFFFFFFFF#64
  else
    let x := sdiff d e.time.num
    if x ≤ 0 then 0 else BitVec.ofNat 64 (x.toNat * e.time.nsps.toNat / 65536)

def isBaton (sender : Bool) (num peer : U32) (b : Baton) : Bool := b.sender == sender && b.num == num && b.peer == peer

def batonAt (e : Engine) (sender : Bool) (num peer : U32) : Option Baton := e.kv.batons.find? (isBaton sender num peer)

def modBaton (sender : Bool) (num peer : U32) (f : Baton → Baton) (e : Engine) : Engine :=
  modKv (fun k => { k with batons := k.batons.map (fun b => if isBaton sender num peer b then f b else b) }) e

def dropBaton (sender : Bool) (num peer : U32) (e : Engine) : Engine :=
  modKv (fun k => { k with batons := k.batons.filter (fun b => !isBaton sender num peer b) }) e

/-- Send the OFFER of a sender's Baton (R234). -/
def offerSend (b : Baton) (e : Engine) : Engine :=
  match reqAt e b.slot with
  | none => e
  | some r =>
    let nblk := ceilDiv r.e.kvpos 32
    let h := batonHeader 1 0 r.tc b.num (myId e) b.peer nblk r.w.window.length (seedChk (ten e r.tc).tseed)
      (remNs e r.e.dl) (remNs e r.e.ft)
    let body := recBytes r 0 ++ r.w.window.flatMap (fun t => le 4 t.toNat)
    modBaton true b.num b.peer (fun b => { b with offered := some e.time.num }) (relaySend 4 b.peer (h ++ body) e)

/-- Send every OFFER whose request has no row computing (R82, R233 step 2). -/
def offersDue (e : Engine) : Engine :=
  (e.kv.batons.filter (fun b => b.sender && b.offered.isNone)).foldl (fun e b => match reqAt e b.slot with
    | some r => if rowComputing e r.w.uid then e else offerSend b e
    | none => e) e

/-- A Baton fails on this engine (R236). -/
def batonFail (b : Baton) (e : Engine) : Engine :=
  let e := bumpSat rIDX_BSTAT 63 48 1 (dropBaton b.sender b.num b.peer e)
  match reqAt e b.slot with
  | none => e
  | some r =>
    if b.sender then
      if r.e.st = .handedOff ∧ r.w.baton = some b.num.toNat then
        modReq b.slot (fun r => { r with e := { r.e with st := .running }, w := { r.w with baton := none } }) e
      else e
    else if r.e.st = .admitted ∧ r.w.received ∧ r.w.baton = some b.num.toNat ∧ !r.w.kvReady then
      modWork b.slot (fun w => { w with freeNext := true }) (releaseKv b.slot e)
    else e

/-- The engine that detects a failure sends ABORT (R236). -/
def batonAbort (b : Baton) (e : Engine) : Engine :=
  let tc := match reqAt e b.slot with
    | some r => r.tc
    | none => 0
  batonFail b (batonSend 5 0 tc b.num b.peer e)

/-- Batons with a peer fail at its departure. -/
def batonsLost (peer : U32) (e : Engine) : Engine :=
  (e.kv.batons.filter (fun b => b.peer == peer)).foldl (fun e b => batonFail b e) e

/-- Whether BTMO strides have passed since the OFFER. -/
def batonOver (e : Engine) (b : Baton) : Bool :=
  match b.offered with
  | some s => reached (s + BitVec.ofNat 48 (regN e rIDX_BCTRL 31 8)) e.time.num
  | none => false

/-- Batons whose timeout has come (R236). -/
def batonTimeouts (e : Engine) : Engine :=
  (e.kv.batons.filter (batonOver e)).foldl (fun e b => batonAbort b e) e

/-- Batons of a tenant's handed-off requests are aborted before they end (R238). -/
def tenantAborts (tc : Nat) (e : Engine) : Engine :=
  ((slotsOf e tc).filter (fun p => p.2.e.st == .handedOff)).foldl (fun e p =>
    match e.kv.batons.find? (fun b => b.sender && b.slot == p.1) with
    | some b => dropBaton true b.num b.peer (batonSend 5 0 tc b.num b.peer e)
    | none => e) e

/-- An adapter slot of a tenant that holds a version, LIVE or RETIRED. -/
def versionSlot (e : Engine) (tc model adapter version : Nat) : Option Nat :=
  (e.aslots.find? (fun a => a.2.tc == tc && a.2.model == model && a.2.adapter == adapter
    && a.2.version == version)).map (·.1)

/-- The pin of a record that arrives from elsewhere (R235, R304): none outside when not present. -/
def pinOf (e : Engine) (tc : Nat) (d : Desc) (pinVer : Nat) : Option (Option Nat) :=
  if d.adapter = 0xFFFF ∨ pinVer = 0xFFFF then some none
  else match versionSlot e tc d.model d.adapter pinVer with
    | some s => some (some s)
    | none => none

/-- MODEL, pinned adapter version and EXPSET of a record are present (R235, R304). -/
def recPresent (e : Engine) (tc : Nat) (d : Desc) (pinVer : Nat) : Bool :=
  (tget? e.models d.model).isSome && (pinOf e tc d pinVer).isSome && xsetPresent e tc d.model d.expset

/-- The deadline of a remaining budget, counted from the current stride. -/
def budgetTo (e : Engine) (ns : Nat) : Stride :=
  if ns = 2 ^ 64 - 1 then noDl else deadline e.time.num (nsToStr ns e.time.nsps)

/-- KV of a received request is complete: COMPLETE goes out (R233 step 5). -/
def recvComplete (b : Baton) (e : Engine) : Engine :=
  let e := dropBaton false b.num b.peer e
  match reqAt e b.slot with
  | some r =>
    if r.e.st = .admitted ∧ r.w.received ∧ r.w.baton = some b.num.toNat then
      bumpSat rIDX_BSTAT 15 0 1 (batonSend 4 0 r.tc b.num b.peer
        (modWork b.slot (fun w => { w with kvReady := true }) e))
    else e
  | none => e

/-- An OFFER takes effect (R235). -/
def offerIn (src : U32) (m : List Byte) (e : Engine) : Engine :=
  let tc := byteAt m 2
  let num := BitVec.ofNat 32 (fieldAt m 4 4)
  let nblk := fieldAt m 16 4
  let nwin := fieldAt m 20 4
  let rec_ := (m.drop 64).take 128
  let d := { parseDesc rec_ with promptAddr := 0 }
  let g := parseEng rec_
  let refuse (c : Nat) : Engine := batonSend 3 c tc num src e
  if !isOpen e tc then refuse 1
  else if ridInUse e tc d.rid then refuse 2
  else if !recPresent e tc d g.pinVer then refuse 3
  else match assignSlot e tc with
    | none => refuse 4
    | some slot =>
      if freeBlks e + evictCount e < nblk ∨ freePages e < ceilDiv nblk 1024 then refuse 5
      else
        let (uid, e) := takeUid e
        let (lastV, e) := takeFree e
        let win := (List.range nwin).map (fun i => BitVec.ofNat 24 (fieldAt m (192 + 4 * i) 4))
        let r : Req := {
          tc := tc, d := d,
          e := { g with st := .admitted, wait := 0, dl := budgetTo e (fieldAt m 32 8),
                        ft := budgetTo e (fieldAt m 40 8) },
          w := { Work.fresh with
            aslot := (pinOf e tc d g.pinVer).getD none, window := win, watch := (ten e tc).dflt,
            baton := some num.toNat, received := true, uid := uid,
            lastPver := lastV.setWidth 16 } }
        let e := coverBlks slot nblk (placeReq slot r e)
        let e := if (seedChk (ten e tc).tseed).toNat = fieldAt m 24 4 then e else bumpOpen rBRW_SEEDMIS 31 0 1 e
        let b : Baton := {
          sender := false, num := num, peer := src, slot := slot, offered := some e.time.num, accepted := true,
          left := nblk, sent := false }
        let e := modKv (fun k => { k with batons := k.batons ++ [b] }) e
        let e := ((tableOf e slot).zipIdx).foldl (fun e x => issueOrder {
          op := 4, purpose := .recv num.toNat, model := d.model, src := 0, dst := entU32 x.1.loc x.1.id,
          baton := num, peer := src, blk := x.2, tc := tc, rid := d.rid } e) e
        let e := batonSend 2 0 tc num src e
        if nblk = 0 then recvComplete b e else e

/-- An ACCEPT takes effect: SEND orders for the request's blocks (R233 step 4). -/
def acceptIn (src num : U32) (e : Engine) : Engine :=
  match batonAt e true num src with
  | none => e
  | some b =>
    match reqAt e b.slot with
    | none => e
    | some r =>
      if b.accepted then e
      else
        let nblk := ceilDiv r.e.kvpos 32
        let e := modBaton true num src (fun b => { b with accepted := true, left := nblk }) e
        ((r.w.table.take nblk).zipIdx).foldl (fun e x => issueOrder {
          op := 3, purpose := .send num.toNat, model := r.d.model, src := entU32 x.1.loc x.1.id, dst := 0,
          baton := num, peer := src, blk := x.2, tc := r.tc, rid := r.d.rid } e) e

/-- A COMPLETE takes effect (R233 step 6, R237) (DEDUCED, log entry 78). -/
def completeIn (src num : U32) (e : Engine) : Engine :=
  match batonAt e true num src with
  | none => bumpSat rIDX_BSTAT 47 32 1 e
  | some b =>
    let e := bumpSat rIDX_BSTAT 15 0 1 (dropBaton true num src e)
    match reqAt e b.slot with
    | some r => if r.e.st = .handedOff then endSlot b.slot .finished 4 0 e else e
    | none => e

/-- A Baton message takes effect (R233, R236, R323). -/
def batonIn (src : U32) (m : List Byte) (e : Engine) : Engine :=
  let num := BitVec.ofNat 32 (fieldAt m 4 4)
  match byteAt m 0 with
  | 1 => offerIn src m e
  | 2 => acceptIn src num e
  | 3 => match batonAt e true num src with
    | some b => batonFail b e
    | none => e
  | 4 => completeIn src num e
  | 5 => (e.kv.batons.filter (fun b => b.num == num && b.peer == src)).foldl (fun e b => batonFail b e) e
  | _ => e

/-! ## Order reports (R228) -/

/-- A SEND or RECEIVE order ends. -/
def batonOrderDone (sender : Bool) (o : Order) (fail : Bool) (e : Engine) : Engine :=
  match batonAt e sender o.baton o.peer with
  | none => e
  | some b =>
    if fail then batonAbort b e
    else
      let e := modBaton sender o.baton o.peer (fun b => { b with left := b.left - 1 }) e
      if !sender && b.left == 1 then recvComplete b e else e

/-- Count of a block moved (R365). -/
def countMove (o : Order) (e : Engine) : Engine :=
  match o.op with
  | 1 => count 1 (if u32Loc o.dst = 2 then 18 else 19) 1 e
  | 2 => count 1 (if u32Loc o.src = 2 then 20 else 21) 1 e
  | 3 => count 1 22 1 e
  | _ => count 1 23 1 e

/-- The report of an order takes effect. -/
def orderDone (num : Nat) (fail : Bool) (e : Engine) : Engine :=
  match tget? e.kv.orders num with
  | none => e
  | some o =>
    let e := modKv (fun k => { k with orders := tdel k.orders num }) e
    let e := if fail then e else countMove o e
    match o.purpose with
    | .moveNode n t => moveNodeDone n t o fail e
    | .movePriv s k => movePrivDone s k o fail e
    | .fetchNode n s k => fetchNodeDone n s k o fail e
    | .fetchPriv s k => fetchPrivDone s k o fail e
    | .gone a b => goneDone a b o e
    | .send _ => batonOrderDone true o fail e
    | .recv _ => batonOrderDone false o fail e

/-- A write of IDX_BDONE: an external event, or stray (R228). -/
def orderReportIn (num : U32) (fail : Bool) (e : Engine) : Engine :=
  let pending := e.sched.ext.any (fun x => match x.2 with
    | .order n _ => n == num
    | _ => false)
  if (tget? e.kv.orders num.toNat).isSome && !e.kv.ordWait.contains num.toNat && !pending then
    addExt (.order num fail) e
  else bumpSat rIDX_BSTAT 31 16 1 e

/-! ## Peers (R324-R328) -/

/-- Remove a peer: its Batons fail, its rounds end. -/
def peerGone (id : U32) (e : Engine) : Engine :=
  match peerAt e id with
  | none => e
  | some _ =>
    batonsLost id (bumpSat rCP_RELAY_STAT 31 16 1 (modRelay (fun r => { r with
      peers := r.peers.filter (fun p => p.2.id != id), rounds := r.rounds.filter (fun p => p.peer != id) }) e))

/-- An arrival takes effect at the lowest free entry. -/
def peerArrive (x : Peer) (e : Engine) : Engine :=
  match peerAt e x.id, firstFree (tkeys e.relay.peers) 0 256 with
  | none, some i => bumpSat rCP_RELAY_STAT 15 0 1 (modRelay (fun r => { r with peers := tset r.peers i x }) e)
  | _, _ => e

/-- Peers of a tray at a tray loss, all at once (DEDUCED, log entry 57). -/
def trayGone (ids : List U32) (e : Engine) : Engine := ids.foldl (fun e id => peerGone id e) e

/-! ## Messages received (R321-R329) -/

def relayDiscard (e : Engine) : Engine := count 2 13 1 (bumpSat rCP_RELAY_STAT 63 48 1 e)

/-- LEN a KIND has. -/
def relayLenOk (kind len : Nat) (pl : List Byte) : Bool :=
  match kind with
  | 1 => len == 64
  | 2 | 3 => len == 32
  | 4 => if byteAt pl 0 = 1 then len == 192 + 4 * fieldAt pl 20 4 else len == 64
  | 5 => len == 0
  | _ => false

/-- MAGIC, KIND, LEN, CRC and DST of a received message (R322). -/
def relayForm (e : Engine) (m : List Byte) : Bool :=
  let len := fieldAt m 2 2
  let body := m.take (32 + len)
  byteAt m 0 == 0x7A && decide (len ≤ 8448) && decide (32 + len ≤ m.length)
    && decide (m.length ≤ ceilDiv (32 + len) 64 * 64) && relayLenOk (byteAt m 1) len (body.drop 32)
    && crcOk body 28 && (fieldAt m 8 4 == (myId e).toNat || fieldAt m 8 4 == 0xFFFFFFFF)

/-- The same, and CVER. -/
def relayOk (e : Engine) (m : List Byte) : Bool := relayForm e m && byteAt m 26 == 4

/-- An arrival registered and waiting for its stride. -/
def arriving (e : Engine) (id : U32) : Bool := e.sched.ext.any (fun x => match x.2 with
  | .arrive i _ _ _ _ _ _ _ => i == id
  | _ => false)

/-- Arrivals of peers not present that wait for their stride: each takes a free entry. -/
def arrivals (e : Engine) : Nat := (e.sched.ext.filter (fun x => match x.2 with
  | .arrive i _ _ _ _ _ _ _ => (peerAt e i).isNone
  | _ => false)).length

/-- Start a probe round to a peer: 16 probes, replacing a round under way. -/
def probeRound (peer : U32) (e : Engine) : Engine :=
  if !relayOn e then e
  else
    let t := e.time.stamp
    let pe := match peerAt e peer with
      | some (_, p) => p.epoch
      | none => 0
    let r : ProbeRound := {
      peer := peer, epoch := e.time.epoch, peerEpoch := pe, sent := (List.range 16).map (fun i => (i, t)),
      kept := [], answered := 0 }
    let e := modRelay (fun x => { x with rounds := x.rounds.filter (fun y => y.peer != peer) ++ [r] }) e
    (List.range 16).foldl (fun e i => relaySend 2 peer (le 1 i ++ zeros 7 ++ le 8 t.toNat ++ zeros 16) e) e

/-- The epoch a peer's message carries: after a discontinuity of the peer its offset is no longer known, and a probe
round measures it again (R49). -/
def peerEpoch (src : U32) (ep : U16) (e : Engine) : Engine :=
  match peerAt e src with
  | none => e
  | some (i, p) =>
    if p.epoch = ep then e
    else probeRound src (modRelay (fun r => { r with peers := tset r.peers i { p with epoch := ep, ofs := none } }) e)

/-- A BEACON from `src` of stamp epoch `ep` with payload `pl` (R325, R326). -/
def beaconIn (src : U32) (ep : U16) (pl : List Byte) (e : Engine) : Engine :=
  let role := BitVec.ofNat 2 (byteAt pl 4)
  let tray := BitVec.ofNat 32 (fieldAt pl 8 4)
  let x := ExtEv.arrive src tray role (BitVec.ofNat 8 (byteAt pl 1)) (BitVec.ofNat 8 (byteAt pl 2))
    (BitVec.ofNat 8 (byteAt pl 3)) e.time.stamp ep
  match peerAt e src with
  | some (i, p) =>
    let e := modRelay (fun r => { r with peers := tset r.peers i { p with lastBeacon := e.time.stamp } }) e
    if (p.tray = tray ∧ p.role = role) ∨ arriving e src then e else addExt x (addExt (.leave src 2) e)
  | none =>
    if arriving e src then
      { e with sched := { e.sched with ext := e.sched.ext.map (fun y => match y.2 with
        | .arrive i _ _ _ _ _ _ _ => if i = src then (y.1, x) else y
        | _ => y) } }
    else if src = myId e ∨ 256 ≤ e.relay.peers.length + arrivals e then bumpSat rCP_RELAY_STAT 47 32 1 e
    else addExt x e

/-- A PROBE is answered at once (R329). -/
def probeIn (src : U32) (pl : List Byte) (e : Engine) : Engine :=
  relaySend 3 src (pl.take 1 ++ zeros 7 ++ (pl.drop 8).take 8 ++ le 8 e.time.stamp.toNat ++ le 8 e.time.stamp.toNat) e

/-- The probe of smallest delay, the first received on a tie. -/
def bestProbe : List (Int × Int) → Option (Int × Int)
  | [] => none
  | x :: xs => match bestProbe xs with
    | none => some x
    | some y => if y.1 < x.1 then some y else some x

/-- A PROBE_REPLY is received (R329): the sixteenth ends its round, or repeats it when all discard. -/
def probeReplyIn (src : U32) (m pl : List Byte) (e : Engine) : Engine :=
  match e.relay.rounds.find? (fun r => r.peer == src) with
  | none => e
  | some r =>
    match tget? r.sent (byteAt pl 0) with
    | none => e
    | some t1 =>
      if fieldAt pl 8 8 ≠ t1.toNat then e
      else
        let ep := BitVec.ofNat 16 (fieldAt m 24 2)
        let n (x : Nat) : Int := (x : Int)
        let t2 := n (fieldAt pl 16 8)
        let t3 := n (fieldAt pl 24 8)
        let t4 := n e.time.stamp.toNat
        let ok := r.epoch == e.time.epoch && r.peerEpoch == ep
        let delay := (t4 - n t1.toNat) - (t3 - t2)
        let ofs := ((t2 - n t1.toNat) + (t3 - t4)).tdiv 2
        let r' := { r with
          sent := tdel r.sent (byteAt pl 0),
          kept := if ok then r.kept ++ [(delay, ofs)] else r.kept, answered := r.answered + 1 }
        let put (x : List ProbeRound) : List ProbeRound := x.filter (fun y => y.peer != src)
        if r'.answered < 16 then modRelay (fun x => { x with rounds := put x.rounds ++ [r'] }) e
        else
          let e := modRelay (fun x => { x with rounds := put x.rounds }) e
          match bestProbe r'.kept with
          | none => probeRound src e
          | some b => modRelay (fun x => { x with peers := x.peers.map (fun p =>
              if p.2.id = src then (p.1, { p.2 with ofs := some (BitVec.ofInt 64 b.2) }) else p) }) e

/-- A relay message is received, whole. A BEACON of an absent peer with another CVER is discarded and refused (R322, R325)
(DEDUCED, log entry 97). -/
def relayIn (m : List Byte) (e : Engine) : Engine :=
  let e := count 1 17 m.length e
  let src := BitVec.ofNat 32 (fieldAt m 4 4)
  let kind := byteAt m 1
  let pl := (m.drop 32).take (fieldAt m 2 2)
  let ep := BitVec.ofNat 16 (fieldAt m 24 2)
  if relayOn e && relayForm e m && kind == 1 && byteAt m 26 != 4 && (peerAt e src).isNone then
    bumpSat rCP_RELAY_STAT 47 32 1 (relayDiscard e)
  else if !relayOn e || !relayOk e m || (kind != 1 && (peerAt e src).isNone) then relayDiscard e
  else match kind with
    | 1 => peerEpoch src ep (beaconIn src ep pl e)
    | 2 => probeIn src pl (peerEpoch src ep e)
    | 3 => peerEpoch src ep (probeReplyIn src m pl e)
    | 4 => addExt (.baton src pl) (peerEpoch src ep e)
    | _ => addExt (.leave src 1) e

/-- Flits of a message (R321). -/
def flitsOf (m : List Byte) : Nat := ceilDiv m.length 64

/-- A message for which the host holds credits: its flits take them, and return them once it is acted on; without them
it is lost (R321). -/
def relayTake (m : List Byte) (e : Engine) : Engine :=
  let n := flitsOf m
  if e.relay.crd < n then relayDiscard e
  else modRelay (fun r => { r with crd := r.crd + n }) (relayIn m (modRelay (fun r => { r with crd := r.crd - n }) e))

/-- The BEACON payload (14_ports_and_partners.md, BEACON payload). -/
def beaconBytes (e : Engine) : List Byte :=
  [0x7A, 9, 4, 2] ++ le 1 (regN e rCP_RELAY_CFG 1 0) ++ le 1 (b2n (inHold e)) ++ zeros 2
    ++ le 4 (regN e rCP_RELAY_CFG 63 32) ++ le 4 65536 ++ le 2 16384 ++ le 2 256 ++ le 1 64 ++ le 1 32 ++ zeros 2
    ++ le 4 (freeBlks e) ++ le 4 (65536 - e.rq.slots.length) ++ zeros 32

/-- DEPART to every present peer (R324). -/
def departAll (e : Engine) : Engine := e.relay.peers.foldl (fun e p => relaySend 5 p.2.id [] e) e

/-- The departure timer of a peer expires 3,000,000 ns after its last beacon (R326) (DESIGN CHOICE, log entry 79). -/
def departureTimer (peer : U32) (e : Engine) : Engine :=
  match peerAt e peer with
  | none => e
  | some (_, p) =>
    if (e.time.stamp - p.lastBeacon).toNat < 3000000 then e
    else
    let others := e.relay.peers.filter (fun x => x.2.tray == p.tray && x.2.id != peer)
    if others.any (fun x => decide ((e.time.stamp - x.2.lastBeacon).toNat < 2000000)) then addExt (.leave peer 0) e
    else addExt (.trayLoss p.tray ((e.relay.peers.filter (fun x => x.2.tray == p.tray)).map (·.2.id))) e

/-! ## The commands of the relay port -/

def execBeacon (msg : List Byte) (s : State) := onEng (relayTake msg) s
def execDepart (msg : List Byte) (s : State) := onEng (relayTake msg) s
def execProbe (msg : List Byte) (s : State) := onEng (relayTake msg) s
def execProbeReply (msg : List Byte) (s : State) := onEng (relayTake msg) s
def execOffer (msg : List Byte) (s : State) := onEng (relayTake msg) s
def execAccept (msg : List Byte) (s : State) := onEng (relayTake msg) s
def execRefuse (msg : List Byte) (s : State) := onEng (relayTake msg) s
def execComplete (msg : List Byte) (s : State) := onEng (relayTake msg) s
def execAbort (msg : List Byte) (s : State) := onEng (relayTake msg) s

def execBeaconInterval (s : State) := onEng (fun e => relaySend 1 0xFFFFFFFF#32 (beaconBytes e) e) s
def execPeerDepartureTimer (peer : U32) (s : State) := onEng (departureTimer peer) s

/-- A probe round to a present peer starts (R49, R329). -/
def opProbeRound (peer : U32) (e : Engine) : Engine := if (peerAt e peer).isSome then probeRound peer e else e

def execOffsetProbeRound (peer : U32) (s : State) := onEng (opProbeRound peer) s

/-- A message that cannot be taken: lost for want of a credit, or discarded by its checks. -/
def opDiscarded (msg : List Byte) (credit : Bool) (e : Engine) : Engine :=
  if credit then relayTake msg e else relayDiscard e

def execDiscardedRelayMessage (msg : List Byte) (credit : Bool) (s : State) := onEng (opDiscarded msg credit) s

/-- Batons of a number whose timeout has come fail. -/
def opBatonTimeout (num : U32) (e : Engine) : Engine :=
  (e.kv.batons.filter (fun b => b.num == num && batonOver e b)).foldl (fun e b => batonAbort b e) e

def execBatonTimeout (baton : U32) (s : State) := onEng (opBatonTimeout baton) s

end Sys2Proof.Machine
end

