-- ==== Sys2Proof/Machine/Commands.lean ====
section
/-! DEFINITION. The request and memory opcodes at their effect stride (04_request_table_and_admission.md
R76-R85, R90, R421; 10_kv_prefix_and_pools.md R229, R231, R233; 11_variants_and_hot_set.md R249). -/

namespace Sys2Proof.Machine

/-- RESULT of an admission that was parked (R76). -/
def parkedResult : Nat := 2 ^ 48 - 1

/-- ADAPTER and EXPSET agree with the model's VARIANT (R245). -/
def variantOk (variant : Nat) (d : Desc) : Bool :=
  match variant with
  | 0 => d.adapter == 0xFFFF && d.expset == 0
  | 1 => d.expset == 0
  | _ => d.adapter == 0xFFFF

/-- Everything a descriptor names is present for the tenant (R76 check 4). -/
def descPresent (e : Engine) (tc : Nat) (d : Desc) : Bool :=
  match tget? e.models d.model with
  | none => false
  | some m => variantOk m.variant d && handleOk e tc 0 d.maskHandle && handleOk e tc 1 d.adjHandle
      && handleOk e tc 2 d.stopHandle && (pinFor e tc d).isSome && xsetPresent e tc d.model d.expset

/-- The deadline of a budget in nanoseconds, none for 0 (R39, R76, R85). -/
def budgetStr (e : Engine) (ns : Nat) : Stride :=
  if ns = 0 then noDl else deadline e.time.num (nsToStr ns e.time.nsps)

/-- Blocks a walk may reuse (R223). -/
def walkN (ctx : Nat) : Nat := (ctx - 1) / 32

def closing (e : Engine) (tc : Nat) : Bool :=
  match (ten e tc).st with
  | .closing => true
  | _ => false

/-- ADMIT (R76-R78); `ord` is the packet's place in R42, `err` an uncorrectable descriptor read. -/
def opAdmit (ord : List Nat) (tc : Nat) (rid : U32) (addr : Nat) (err : Bool) (e : Engine) : Res :=
  if err || badRange e addr 128 then refuse sMEM_ERROR e
  else
    let b := rd e addr 128
    let d := parseDesc b
    if !descOk b rid then refuse sBAD_IMAGE e
    else if ridInUse e tc rid then refuse sRID_IN_USE e
    else if !descPresent e tc d then refuse sNO_SUCH_OBJECT e
    else
      let (aslot, pin) := (pinFor e tc d).getD (none, 0xFFFF)
      let dl := budgetStr e d.budgetNs
      let ft := budgetStr e d.firstNs
      if closing e tc || (policyRes e (attrAdmit e tc d dl ft aslot) true).refused then refuse sQUOTA e
      else
        let r (uid : Nat) : Req := {
          tc := tc, d := d, e := { EngRec.fresh with pinVer := pin, dl := dl, ft := ft },
          w := { Work.fresh with aslot := aslot, watch := (ten e tc).dflt, uid := uid } }
        match assignSlot e tc, parkRoom e tc with
        | some slot, _ =>
          let (uid, e) := takeUid e
          let e := placeReq slot (r uid) (count 3 10 1 (tcount tc 8 1 e))
          done slot (startWalk slot (walkN d.promptLen) false ord e)
        | none, some entry =>
          let (uid, e) := takeUid e
          { status := sOK_PARKED, result := parkedResult,
            eng := parkAt entry 1 (r uid) (count 3 10 1 (tcount tc 8 1 e)) }
        | none, none => refuse sQUOTA e

/-- Look a request up: its slot, its spill entry, or neither. -/
inductive Found where
  | slot (n : Nat) (r : Req)
  | parked (p : Parked)
  | none

def lookup (e : Engine) (tc : Nat) (rid : U32) : Found :=
  match findSlot e tc rid with
  | some (s, r) => .slot s r
  | none => match findParked e tc rid with
    | some p => .parked p
    | none => .none

/-- PAUSE (R79, R229) (DEDUCED, log entry 80). -/
def opPause (tc : Nat) (rid : U32) (ttl tier : Nat) (e : Engine) : Res :=
  match lookup e tc rid with
  | .none => refuse sNO_SUCH_RID e
  | .parked _ => refuse sWRONG_STATE e
  | .slot s r => match r.e.st with
    | .paused => { status := sOK_NOOP, result := s, eng := e }
    | .prefilling | .running =>
      done s (modReq s (fun r => { r with
        e := { r.e with st := .paused },
        w := { r.w with pauseDue := some (ttl, tier), kvReady := false,
                        draft := r.w.draft.drop } }) e)
    | _ => refuse sWRONG_STATE e

/-- RESUME (R79, R231): before the treatment the table is intact, after it a walk starts. -/
def opResume (ord : List Nat) (tc : Nat) (rid : U32) (e : Engine) : Res :=
  match lookup e tc rid with
  | .none => refuse sNO_SUCH_RID e
  | .parked _ => refuse sWRONG_STATE e
  | .slot s r => match r.e.st with
    | .admitted | .prefilling | .running => { status := sOK_NOOP, result := s, eng := e }
    | .paused =>
      let early := r.w.pauseDue.isSome
      let e := modReq s (fun r => { r with
        e := { r.e with st := .admitted },
        w := { r.w with pauseDue := none, kvReady := early } }) e
      done s (if early then e else startWalk s (walkN (ctxOf r)) true ord e)
    | _ => refuse sWRONG_STATE e

/-- CANCEL (R79). -/
def opCancel (tc : Nat) (rid : U32) (e : Engine) : Res :=
  match lookup e tc rid with
  | .none => refuse sNO_SUCH_RID e
  | .parked p =>
    if terminal p.req.e.st then refuse sWRONG_STATE e
    else done p.req.e.gen (endParked p.entry .cancelled 5 e)
  | .slot s r =>
    if terminal r.e.st || r.e.st == .handedOff then refuse sWRONG_STATE e
    else done r.e.gen (endSlot s .cancelled 5 0 e)

/-- The budgets of SET_BUDGET entered in a record. -/
def setBudget (mt : Nat) (dl : Stride) (r : Req) : Req :=
  { r with d := { r.d with maxTokens := if mt = 0 then r.d.maxTokens else mt }, e := { r.e with dl := dl } }

/-- SET_BUDGET (R85). -/
def opSetBudget (tc : Nat) (rid : U32) (mt ns : Nat) (e : Engine) : Res :=
  let dl := budgetStr e ns
  let res := if dl = noDl then 0 else (dl - e.time.num).toNat
  match lookup e tc rid with
  | .none => refuse sNO_SUCH_RID e
  | .parked p =>
    if terminal p.req.e.st then refuse sWRONG_STATE e
    else
      let q := setBudget mt dl p.req
      let e := modParked p.entry (fun _ => q) e
      done res (if q.d.maxTokens ≤ q.e.gen then
        rolloutEnd (endRec .finished 1 0 none false q) q.w.lastPver (endParked p.entry .finished 1 e) else e)
  | .slot s r =>
    if terminal r.e.st || r.e.st == .handedOff then refuse sWRONG_STATE e
    else
      let q := setBudget mt dl r
      let e := setReq s q e
      done res (if q.d.maxTokens ≤ q.e.gen then
        rolloutEnd (endRec .finished 1 0 none false q) q.w.lastPver (endSlot s .finished 1 0 e) else e)

/-- HANDOFF (R79, R233, R328): the OFFER goes once no row of the request computes. -/
def opHandoff (tc : Nat) (rid : U32) (peer : U32) (e : Engine) : Res :=
  match lookup e tc rid with
  | .none => refuse sNO_SUCH_RID e
  | .parked _ => refuse sWRONG_STATE e
  | .slot s r =>
    if r.e.st ≠ .running then refuse sWRONG_STATE e
    else if (peerAt e peer).isNone then refuse sPEER_GONE e
    else
      let num := e.kv.nextBaton
      let b : Baton := {
        sender := true, num := num, peer := peer, slot := s, offered := none, accepted := false, left := 0,
        sent := false }
      let e := modKv (fun k => { k with nextBaton := num + 1, batons := k.batons ++ [b] }) e
      let e := modReq s (fun r => { r with
        e := { r.e with st := .handedOff }, w := { r.w with baton := some num.toNat, draft := r.w.draft.drop } }) e
      done num.toNat (if rowComputing e r.w.uid then e else offerSend b e)

/-- STOPM of every request of a tenant that names the handle becomes 0 (R90, R421). -/
def stopmClear (tc : Nat) (h : U32) (e : Engine) : Engine :=
  let z (r : Req) : Req := { r with e := { r.e with stopm := 0 } }
  let e := ((slotsOf e tc).filter (fun p => p.2.d.stopHandle == h)).foldl (fun e p => modReq p.1 z e) e
  ((parkedOf e tc).filter (fun p => p.req.d.stopHandle == h)).foldl (fun e p => modParked p.entry z e) e

/-- Handles of kinds 0-2 of a tenant. -/
def regionsOf (e : Engine) (tc : Nat) : Table Region := e.regions.filter (fun p => p.1 / 2 ^ 32 == tc)

/-- REGION_PUBLISH (R45, R249, R421): the region is read unless it is an adapter table (R247)
(DEDUCED, log entry 87). -/
def opRegionPublish (tc addr bytes kind : Nat) (h : U32) (err : Bool) (e : Engine) : Res :=
  if kind ≠ 3 ∧ (err ∨ (bytes ≠ 0 ∧ badRange e addr bytes)) then refuse sMEM_ERROR e
  else if kind = 3 then
    match tget? e.aslots h.toNat with
    | none => refuse sNO_SUCH_OBJECT e
    | some a =>
      if a.tc ≠ tc then refuse sNO_SUCH_OBJECT e
      else done h.toNat { e with aslots := tset e.aslots h.toNat (if bytes = 0 then { a with resident := false }
        else { a with resident := true, table := addr }) }
  else if h = 0 then refuse sNO_SUCH_OBJECT e
  else if (regionAt e tc h).isNone && decide (256 ≤ (regionsOf e tc).length) then refuse sQUOTA e
  else done h.toNat (stopmClear tc h { e with
    regions := tset e.regions (regionKey tc h) { kind := kind, addr := addr, bytes := bytes } })

end Sys2Proof.Machine
end

