-- ==== Sys2Proof/Machine/Variants.lean ====
section
/-! DEFINITION. The hot set, adapters and private experts (11_variants_and_hot_set.md R240-R256). -/

namespace Sys2Proof.Machine

/-! ## Models (R240-R244) -/

def parseModel (b : List Byte) : Model := {
  variant := byteAt b 5, pacer := byteAt b 6, vocab := fieldAt b 8 4, nexp := fieldAt b 12 2,
  nshared := fieldAt b 14 2, nset := fieldAt b 16 2, loadCost := fieldAt b 20 4, bytes := fieldAt b 24 8,
  lanes := BitVec.ofNat 64 (fieldAt b 32 8), plans := [], dstep := noPlanCost, pchunk := 1, pstep := noPlanCost,
  lch := none, lspt := 0, useNow := 0, useLast := 0 }

/-- A model descriptor meets R240 and R241. -/
def modelOk (b : List Byte) (model : Nat) : Bool :=
  let m := parseModel b
  fieldAt b 0 4 == 0x7A4D444C && crcOk b 40 && zeroRange b 7 8 && zeroRange b 18 20 && zeroRange b 44 64
    && decide (m.variant ≤ 2) && (decide (m.pacer < 32) || m.pacer == 0xFF) && m.pacer != model
    && decide (1 ≤ m.vocab ∧ m.vocab ≤ 1048576) && decide (1 ≤ m.loadCost)
    && (if m.variant = 2 then
          decide (2 ≤ m.nexp ∧ m.nexp ≤ 4096 ∧ 1 ≤ m.nshared ∧ m.nshared < m.nexp ∧ 2 ≤ m.nset ∧ m.nset ≤ 1024)
        else m.nexp == 0 && m.nshared == 0 && m.nset == 0)

/-- Every request there is, slots and spill area. -/
def allReqs (e : Engine) : List Req := e.rq.slots.map (·.2) ++ e.rq.parked.map (·.req)

/-- A request has the model, or has it as its effective model (R243). -/
def modelUsed (e : Engine) (m : Nat) : Bool := (allReqs e).any (fun r => r.d.model == m || effModel e r == some m)

/-- The model drafts for a registered model that has a request (R244). -/
def paces (e : Engine) (m : Nat) : Bool :=
  e.models.any (fun x => x.2.pacer == m && (allReqs e).any (fun r => r.d.model == x.1))

/-- `a` goes before `b` in the advice: USE × LOADCOST / BYTES ascending, the lower number on a tie. -/
def adviceLt (a b : Nat × Model) : Bool :=
  let x := a.2.useLast * a.2.loadCost * max 1 b.2.bytes
  let y := b.2.useLast * b.2.loadCost * max 1 a.2.bytes
  decide (x < y) || (x == y && decide (a.1 < b.1))

/-- Recompute VAR_ADV (R244). -/
def adviceNow (e : Engine) : Engine :=
  let cands := sortBy adviceLt (e.models.filter (fun x =>
    !modelUsed e x.1 && !paces e x.1 && (x.2.lanes &&& reg e rVAR_ADV_CTRL) != 0))
  let at_ (i : Nat) : Nat := match cands[i]? with
    | some x => x.1
    | none => 0xFF
  { e with advice := (at_ 0, at_ 1) }

/-- MODEL_REGISTER (R241). -/
def opModelRegister (addr model : Nat) (err : Bool) (e : Engine) : Res :=
  if err || badRange e addr 64 then refuse sMEM_ERROR e
  else
    let b := rd e addr 64
    if byteAt b 4 ≠ 4 then refuse sBAD_VERSION e
    else if !modelOk b model then refuse sBAD_IMAGE e
    else if (tget? e.models model).isSome then refuse sIN_USE e
    else done model (adviceNow { e with models := tset e.models model (parseModel b) })

/-- Drafts made with a model as pacer go, with their open rounds (R243 step 5). -/
def dropDrafts (model : Nat) (e : Engine) : Engine :=
  let mine := e.rq.slots.filter (fun p => match tget? e.models p.2.d.model with
    | some m => m.pacer == model
    | none => false)
  mine.foldl (fun e p =>
    let e := match p.2.w.draft.round with
      | some _ => dropStream p.2.w.draft.lead 2 (bumpSat rSPR_SPEC_ERR 47 32 1 e)
      | none => e
    modWork p.1 (fun w => { w with draft := w.draft.drop }) e) e

/-- Remove every index node of a model with its subtree (R243 step 4). -/
def dropNodes (p : Node → Bool) (e : Engine) : Engine :=
  (tkeys (e.kv.nodes.filter (fun x => p x.2))).foldl (fun e n => match nodeAt e n with
    | some _ => (removeTree n e).1
    | none => e) e

def xsetAddr (e : Engine) (key : Nat) : Nat :=
  (reg e rVAR_XSET_BASE).toNat / 2 ^ 18 * 2 ^ 18 + 8 * (1024 * (key / 65536) + key % 65536)

def xsetOn (e : Engine) : Bool := regB e rVAR_XSET_BASE 0

def xsetWrite (key : Nat) (x : XSet) (e : Engine) : Engine :=
  if xsetOn e then wrN (xsetAddr e key) 8 (x.addr / 64 * 64 + 1) e else e

/-- Sets that satisfy `p` lose their owner; their entries are zeroed at the next boundary (R255)
(DEDUCED, log entry 72). -/
def xsetDisown (p : Nat → XSet → Bool) (e : Engine) : Engine :=
  { e with xsets := e.xsets.map (fun x => if p x.1 x.2 then (x.1, { x.2 with owner := none }) else x) }

/-- Boundary: zero the entries of sets that lost their owner. -/
def xsetsFree (e : Engine) : Engine :=
  let gone := e.xsets.filter (fun x => x.2.owner.isNone)
  let e := if xsetOn e then gone.foldl (fun e x => wrN (xsetAddr e x.1) 8 0 e) e else e
  { e with xsets := e.xsets.filter (fun x => x.2.owner.isSome) }

/-- MODEL_EVICT (R243). -/
def opModelEvict (model : Nat) (e : Engine) : Res :=
  match tget? e.models model with
  | none => refuse sNO_SUCH_OBJECT e
  | some m =>
    if modelUsed e model then refuse sIN_USE e
    else
      let e := dropDrafts model e
      let e := dropNodes (fun n => n.model == model) e
      let e := { e with
        models := tdel e.models model, images := tdel e.images model,
        plans := { e.plans with store := storeDrop m.plans e.plans.store },
        aslots := e.aslots.filter (fun a => a.2.model != model) }
      done 0 (adviceNow (xsetDisown (fun k _ => k / 65536 == model) e))

/-! ## Adapters (R246-R253) -/

/-- Slots of one adapter, LIVE and RETIRED. -/
def adapterSlots (e : Engine) (model adapter : Nat) : Table ASlot :=
  e.aslots.filter (fun a => a.2.model == model && a.2.adapter == adapter)

/-- ADAPTER_REGISTER (R246). -/
def opAdapterRegister (tc addr model adapter version rank : Nat) (e : Engine) : Res :=
  match tget? e.models model with
  | none => refuse sNO_SUCH_OBJECT e
  | some m =>
    let mine := adapterSlots e model adapter
    if m.variant ≠ 1 then refuse sNO_SUCH_OBJECT e
    else if mine.any (fun a => a.2.tc != tc || decide (version ≤ a.2.version)) then refuse sWRONG_STATE e
    else match firstFree (tkeys e.aslots) 0 4096 with
      | none => refuse sQUOTA e
      | some s =>
        if 4 ≤ mine.length then refuse sQUOTA e
        else
          let old := e.aslots.map (fun a =>
            if a.2.model = model ∧ a.2.adapter = adapter then (a.1, { a.2 with retired := true }) else a)
          done s { e with aslots := tset old s {
            retired := false, resident := true, tc := tc, model := model, adapter := adapter, version := version,
            rank := rank, table := addr } }

/-- Requests a forced retirement re-pins (R252). -/
def repinSet (r : Req) (s : Nat) : Bool := r.w.aslot == some s && !terminal r.e.st && !r.e.fbk

/-- ADAPTER_RETIRE (R251, R252). -/
def opAdapterRetire (tc model adapter version force : Nat) (e : Engine) : Res :=
  match versionSlot e tc model adapter version with
  | none => refuse sNO_SUCH_OBJECT e
  | some s =>
    let e := { e with aslots := tmod e.aslots s (fun a => { a with retired := true }) }
    if force = 0 then done 0 e
    else
      let n := ((allReqs e).filter (fun r => repinSet r s)).length
      let mark (r : Req) : Req := if repinSet r s then { r with w := { r.w with repinDue := true } } else r
      let e := { e with rq := { e.rq with
        slots := e.rq.slots.map (fun p => (p.1, mark p.2)),
        parked := e.rq.parked.map (fun p => { p with req := mark p.req }) } }
      { status := if n = 0 then 0 else sOK_FLAGGED, result := n, eng := e }

/-- A re-pin of one request, to the LIVE slot of its adapter or to none. -/
def repin (e : Engine) (r : Req) : Req :=
  if !r.w.repinDue then r
  else if terminal r.e.st || r.e.fbk then { r with w := { r.w with repinDue := false } }
  else
    let live := liveASlot e r.tc r.d.model r.d.adapter
    { r with
      e := { r.e with repin := true, pinVer := match live with
        | some x => x.2.version
        | none => 0xFFFF },
      w := { r.w with repinDue := false, repinTok := true, aslot := live.map (·.1) } }

/-- Step P2 of R105: the forced re-pins that are due (R252). -/
def repins (e : Engine) : Engine :=
  let due (r : Req) : Bool := r.w.repinDue && !terminal r.e.st && !r.e.fbk
  let n := ((allReqs e).filter due).length
  let pk := (e.rq.parked.filter (fun p => due p.req)).map (·.entry)
  let e := bumpOpen rVAR_ASTAT 31 0 n { e with rq := { e.rq with
    slots := e.rq.slots.map (fun p => (p.1, repin e p.2)),
    parked := e.rq.parked.map (fun p => { p with req := repin e p.req }) } }
  pk.foldl (fun e k => modParked k id e) e

/-- RETIRED slots that no request is pinned to become FREE (R253). -/
def freeRetired (e : Engine) : Engine :=
  { e with aslots := e.aslots.filter (fun a => !(a.2.retired && aslotRefs e a.1 == 0)) }

/-- LIVE slots of a tenant become RETIRED (R253, R285, R287). -/
def retireTenant (tc : Nat) (e : Engine) : Engine :=
  { e with aslots := e.aslots.map (fun a => if a.2.tc = tc then (a.1, { a.2 with retired := true }) else a) }

/-! ## Private experts (R254-R256) -/

/-- EXPERT_SET (R255). -/
def opExpertSet (tc addr model set : Nat) (e : Engine) : Res :=
  let key := xsetKey model set
  match tget? e.models model with
  | none => refuse sNO_SUCH_OBJECT e
  | some m =>
    let foreign := match tget? e.xsets key with
      | some x => x.owner.isSome && x.owner != some tc
      | none => false
    if m.variant ≠ 2 || foreign then refuse sNO_SUCH_OBJECT e
    else if m.nset ≤ set then refuse sQUOTA e
    else
      let x : XSet := { owner := some tc, addr := addr }
      done set (xsetWrite key x { e with xsets := tset e.xsets key x })

end Sys2Proof.Machine
end

