-- ==== Sys2Proof/Machine/Learn.lean ====
section
/-! DEFINITION. Turns, rollouts, windows, learn heats, scale history and cross-check
(12_rl_turns_and_learning.md R257-R281). -/

namespace Sys2Proof.Machine

def modLearnSt (f : LearnSt → LearnSt) (e : Engine) : Engine := { e with learn := f e.learn }
def modWin (f : Win → Win) (e : Engine) : Engine := modLearnSt (fun l => { l with win := l.win.map f }) e

/-- LSTATE codes (12_rl_turns_and_learning.md, turn states). -/
def lsCode : LState → Nat
  | .gen => 0 | .turning => 1 | .idle => 2 | .opened => 3 | .granted => 4

def turnOf (e : Engine) (tc : Nat) : LState := (ten e tc).learn.ls

/-- Whether the owner is learning: its state is L_IDLE, L_OPEN or GRANTED. -/
def learning (e : Engine) : Bool :=
  match e.learn.owner with
  | none => false
  | some tc => match turnOf e tc with
    | .idle | .opened | .granted => true
    | _ => false

/-- Raise the learner's vector when its enable bit is set. -/
def turnIrq (tc ie : Nat) (e : Engine) : Engine :=
  if regB e (rTRN_TIRQ tc) ie then
    raiseVec (.tv (BitVec.ofNat 8 tc) (BitVec.ofNat 3 (regN e (rTRN_TIRQ tc) 2 0))) e
  else e

/-! ## Parking by a turn (R263, R264) -/

/-- A slot-holding request enters a spill entry; its KV goes (R225). -/
def parkSlot (slot entry cause : Nat) (e : Engine) : Engine :=
  let e := releaseKv slot e
  match reqAt e slot with
  | none => e
  | some r => parkAt entry cause r { e with rq := { e.rq with slots := tdel e.rq.slots slot } }

/-- States a turn parks from. -/
def turnParks : RState → Bool
  | .admitted | .prefilling | .running => true
  | _ => false

/-- States a turn waits for. -/
def turnWaits : RState → Bool
  | .handedOff => true
  | s => turnParks s

/-- ROLLOUT requests of a tenant in slots. -/
def rolloutSlots (e : Engine) (tc : Nat) : Table Req := (slotsOf e tc).filter (fun p => p.2.d.rollout)

/-- Park one rollout, or hold it in its slot for want of room. -/
def turnPark (slot : Nat) (e : Engine) : Engine :=
  match spillFree e with
  | some entry => parkSlot slot entry 2 e
  | none => match reqAt e slot with
    | none => e
    | some r =>
      if r.e.theld then e
      else bumpSat rTRN_LSTAT 15 0 1 (modEng slot (fun x => { x with theld := true }) e)

/-- Park held rollouts as room appears. -/
def theldPark (tc : Nat) (e : Engine) : Engine :=
  ((rolloutSlots e tc).filter (fun p => p.2.e.theld && turnParks p.2.e.st)).foldl (fun e p =>
    if (spillFree e).isSome then turnPark p.1 e else e) e

/-- Enter L_IDLE: OP_COMPLETE for the packets of the turn (R261). -/
def enterIdle (tc : Nat) (e : Engine) : Engine :=
  let ps := (ten e tc).learn.turnPkts
  let e := modLearn tc (fun l => { l with ls := .idle, park := false, turnPkts := [] }) e
  ps.foldl (fun e h => opComplete h e) e

/-- R263 at one boundary. -/
def turnBoundary (tc : Nat) (e : Engine) : Engine :=
  let park := (ten e tc).learn.park
  let mine := (rolloutSlots e tc).filter (fun p =>
    turnParks p.2.e.st && !p.2.e.theld && (park || stale e p.2 || p.2.w.roHeld))
  let e := mine.foldl (fun e p => turnPark p.1 e) e
  if park || (rolloutSlots e tc).all (fun p => !turnWaits p.2.e.st || p.2.e.theld) then enterIdle tc e else e

/-! ## Windows (R267-R275) -/

def storeAt (e : Engine) (tc entry : Nat) : Option Rollout := tget? (ten e tc).learn.store entry

def modRollout (tc entry : Nat) (f : Rollout → Rollout) (e : Engine) : Engine :=
  match storeAt e tc entry with
  | some r => setRollout tc entry (f r) e
  | none => e

/-- LEN of a store entry. -/
def rolLen (e : Engine) (tc entry : Nat) : Nat :=
  match storeAt e tc entry with
  | some r => r.promptLen + r.gen
  | none => 0

def lchOf (e : Engine) (m : Nat) : Option Nat := (tget? e.models m).bind (·.lch)
def lsptOf (e : Engine) (m : Nat) : Nat :=
  match tget? e.models m with
  | some x => x.lspt
  | none => 0

/-- WAITING records of a tenant that satisfy `p`, by FSEQ. -/
def waitRecs (e : Engine) (tc : Nat) (p : Rollout → Bool) : List (Nat × Rollout) :=
  sortBy (fun (a b : Nat × Rollout) => decide (a.2.fseq < b.2.fseq))
    ((ten e tc).learn.store.filter (fun x => x.2.st == 1 && p x.2))

/-- One micro-batch packed from waiting records: those taken, those left. -/
def packOne (tokens lspt stash : Nat) : List (Nat × Nat) → Nat → List Nat → List (Nat × Nat) →
    List Nat × List (Nat × Nat)
  | [], _, took, left => (took.reverse, left.reverse)
  | (i, t) :: ws, tok, took, left =>
    if took.isEmpty || (decide (tok + t ≤ tokens) && decide ((tok + t) * lspt ≤ stash)) then
      packOne tokens lspt stash ws (tok + t) (i :: took) left
    else packOne tokens lspt stash ws tok took ((i, t) :: left)

/-- Pack until `n` more micro-batches are formed or no record waits. -/
def packAll (tokens lspt stash : Nat) : Nat → List (Nat × Nat) → List (List Nat)
  | 0, _ => []
  | n + 1, ws =>
    match packOne tokens lspt stash ws 0 [] [] with
    | ([], _) => []
    | (m, rest) => m :: packAll tokens lspt stash n rest

/-- The scale history is lost (R279). -/
def scaleLoss (e : Engine) : Engine :=
  bumpSat rTRN_SCALE_STAT 31 16 1 (modLearnSt (fun l => { l with scale := [], left := 16 }) e)

/-- Open a window in L_IDLE (R269). -/
def openWindow (tc : Nat) (e : Engine) : Engine :=
  let l := (ten e tc).learn
  let deferred : List (List Nat) := e.learn.deferred
  let ready : List (Nat × Rollout) := waitRecs e tc (fun r => (lchOf e r.model).isSome)
  let model := match deferred.flatten.head?.bind (storeAt e tc) with
    | some r => some r.model
    | none => ready.head?.map (fun (x : Nat × Rollout) => x.2.model)
  match model with
  | none => e
  | some m =>
    let e := match e.learn.lastWin with
      | some w => if w = (tc, m) then e else scaleLoss e
      | none => e
    let ws : List (Nat × Nat) :=
      (waitRecs e tc (fun r => r.model == m)).map (fun (x : Nat × Rollout) => (x.1, x.2.promptLen + x.2.gen))
    let mbs := deferred ++ packAll l.tokens (lsptOf e m) l.stash (l.window - deferred.length) ws
    let num := l.twin + 1
    let e := modLearn tc (fun l => { l with twin := num, ls := .opened }) e
    let e := (mbs.zipIdx).foldl (fun e b => b.1.foldl (fun e i =>
      modRollout tc i (fun r => { r with st := 2, mb := b.2, window := num.toNat }) e) e) e
    let w : Win := {
      num := num, model := m, wver := l.lver, mbs := mbs.map (fun b => { entries := b, invalid := false }),
      cur := 0, bwd := false, chunks := [], ordinal := 0, lastMb := none, cause := 0, ostr := e.time.num,
      heats := 0, spill := 0, firstInv := none, xfail := 0, xmiss := 0 }
    modLearnSt (fun s => { s with win := some w, lmodel := m, deferred := [], lastWin := some (tc, m) }) e

/-- The last micro-batch the window runs (R272, R275). -/
def winLast (e : Engine) (tc : Nat) (w : Win) : Nat :=
  match w.lastMb with
  | some m => m
  | none => min (ten e tc).learn.window w.mbs.length - 1

def mbEntries (w : Win) (m : Nat) : List Nat :=
  match w.mbs[m]? with
  | some b => b.entries
  | none => []

/-- Chunks of a store entry. -/
def nChunks (e : Engine) (tc lch entry : Nat) : Nat := ceilDiv (rolLen e tc entry) lch

/-- Chunks of an entry not yet done in the current pass. -/
def chunksLeft (e : Engine) (tc lch : Nat) (w : Win) (entry : Nat) : List Nat :=
  (List.range (nChunks e tc lch entry)).filter (fun k => !w.chunks.contains (entry, k))

/-- The current pass of the running micro-batch is done. -/
def passDone (e : Engine) (tc : Nat) (w : Win) : Bool :=
  match lchOf e w.model with
  | none => false
  | some lch => (mbEntries w w.cur).all (fun i => (chunksLeft e tc lch w i).isEmpty)

/-- The window record (R272). -/
def winBytes (e : Engine) (tc : Nat) (w : Win) (last : Nat) : List Byte :=
  let run := w.mbs.take (last + 1)
  let ids := run.flatMap (·.entries)
  le 4 w.num.toNat ++ le 1 tc ++ le 1 w.model ++ le 1 (64 * w.cause) ++ [0] ++ le 2 run.length
    ++ le 2 (w.mbs.length - run.length) ++ le 2 w.wver.toNat ++ le 2 (countTrue (run.map (·.invalid)))
    ++ le 2 (w.firstInv.getD 0xFFFF) ++ le 2 w.xfail ++ le 2 w.xmiss ++ zeros 2 ++ le 6 w.ostr.toNat
    ++ le 6 e.time.num.toNat ++ le 4 ids.length ++ le 8 (ids.map (rolLen e tc)).sum ++ le 8 w.spill.toNat
    ++ le 8 e.time.stamp.toNat

def winAddr (e : Engine) (tc : Nat) (num : Nat) : Nat :=
  (reg e (rTRN_WIN_BASE tc)).toNat / 4096 * 4096 + 64 * (num % 2 ^ regN e (rTRN_WIN_BASE tc) 4 0)

/-- Close the window: GRANTED, the record, the interrupt (R272). -/
def closeWindow (tc : Nat) (w : Win) (last : Nat) (e : Engine) : Engine :=
  let e := wr (winAddr e tc w.num.toNat) (winBytes e tc w last) e
  let e := modLearnSt (fun s => { s with deferred := (w.mbs.drop (last + 1)).map (·.entries) }) e
  turnIrq tc 7 (count 3 15 1 (modLearn tc (fun l => { l with ls := .granted }) e))

/-- The next pass or micro-batch starts when the current pass is done; the window closes after the last
backward pass (R271, R272). -/
def passStep (tc : Nat) (e : Engine) : Engine :=
  match e.learn.win with
  | none => e
  | some w =>
    if !passDone e tc w then e
    else if !w.bwd then modWin (fun w => { w with bwd := true, chunks := [], ordinal := 0 }) e
    else
      let e := (mbEntries w w.cur).foldl (fun e i => modRollout tc i (fun r => { r with st := 3 }) e) e
      let last := winLast e tc w
      if last ≤ w.cur then closeWindow tc w last e
      else modWin (fun w => { w with cur := w.cur + 1, bwd := false, chunks := [], ordinal := 0 }) e

/-- R275 on the stash level of a stride: HIGHB reached in a forward pass makes its micro-batch the last. -/
def stashHigh (e : Engine) : Engine :=
  match e.learn.owner, e.learn.win with
  | some tc, some w =>
    let highb := (ten e tc).learn.stash * regN e rTRN_STASH_CTRL 7 0 / 256
    match turnOf e tc with
    | .opened => if !w.bwd && decide (highb ≤ e.learn.level.toNat) then
        modWin (fun w => { w with lastMb := some w.cur, cause := 1 }) e else e
    | _ => e
  | _, _ => e

/-- A sampled stash word: the last level stands, spill bytes add up (R43, R276, R315). -/
def stashSample (level spill : U64) (e : Engine) : Engine :=
  let e := modLearnSt (fun l => { l with level := level }) e
  let e := bumpOpen rTRN_SPILL 63 0 spill.toNat e
  modWin (fun w => { w with spill := w.spill + spill }) e

/-! ## Completion of a learn heat (R262 step 1) -/

/-- Larger of two fp32 reports, a NaN above every number (R316). -/
def errMax (a b : U32) : U32 := if fNan a then a else if fNan b then b else if fOrd a < fOrd b then b else a

/-- A sampled amax entry of the heat just computed (R278). -/
def amaxSample (tensor : Nat) (v : U32) (e : Engine) : Engine :=
  if amaxBad v then e
  else modLearnSt (fun l => { l with amax := tset l.amax tensor (match tget? l.amax tensor with
    | some o => errMax o v
    | none => v) }) e

/-- A sampled digest entry: kept when its CHECK is selected and its TENSOR agrees (R281, R316). -/
def digestSample (tensor check : Nat) (v : U32) (e : Engine) : Engine :=
  match e.learn.checks[check]? with
  | some c => if c.tensor = tensor then
      modLearnSt (fun l => { l with digests := tset l.digests check (match tget? l.digests check with
        | some o => errMax o v
        | none => v) }) e else e
  | none => e

/-- The fence of one learn heat: the step-done reports whose WVER is not the window's (R277), each for its port (R386). -/
def fenceCheck (tc : Nat) (h : Heat) (e : Engine) : Engine :=
  match e.learn.win with
  | none => e
  | some w =>
    let out := h.wvers.filter (fun x => x.2 != w.wver)
    if out.isEmpty then e
    else
      let e := out.foldl (fun e x =>
        let dp := hTile x.1.toNat 5 x.1.toNat
        fault .versionFenceBreach (BitVec.ofNat 8 tc) .none dp dp (BitVec.ofNat 64 (x.2.toNat + w.wver.toNat * 2 ^ 16)) e) e
      let e := bumpSat rTRN_LSTAT 63 48 1 e
      let e := (mbEntries w w.cur).foldl (fun e i => modRollout tc i (fun r => { r with invalid := true }) e) e
      let e := modWin (fun w => { w with
        mbs := w.mbs.zipIdx.map (fun b => if b.2 = w.cur then { b.1 with invalid := true } else b.1),
        firstInv := some (w.firstInv.getD w.cur) }) e
      turnIrq tc 6 e

/-- Evaluate the selected checks of the heat (R281). -/
def checksEval (tc : Nat) (e : Engine) : Engine :=
  let tol := (reg e rTRN_XCHK_TOL).setWidth 32
  let e := (e.learn.checks.zipIdx).foldl (fun e c =>
    match tget? e.learn.digests c.2 with
    | none => modWin (fun w => { w with xmiss := satAdd 16 w.xmiss 1 }) (bumpSat rTRN_LSTAT 31 16 1 e)
    | some v =>
      if fNan v || decide (fOrd tol < fOrd v) then
        turnIrq tc 5 (modWin (fun w => { w with xfail := satAdd 16 w.xfail 1 }) (bumpSat rTRN_LSTAT 47 32 1 e))
      else e) e
  modLearnSt (fun l => { l with checks := [], digests := [] }) e

/-- Enter the heat's amax values: the last 16 of each tensor are held (R278). -/
def amaxEnter (e : Engine) : Engine :=
  modLearnSt (fun l => { l with
    scale := l.amax.foldl (fun t p => tset t p.1 ((p.2 :: tget [] t p.1).take 16)) l.scale, amax := [] }) e

/-- Complete the previous heat, when it was a learn heat (R262 step 1, R279). -/
def learnComplete (tc : Nat) (e : Engine) : Engine :=
  match e.heat.cur with
  | none => e
  | some h =>
    if !h.learn then e
    else
      let full := !h.rows.isEmpty
      let e := modWin (fun w => { w with chunks := w.chunks ++ h.rows.filterMap (·.chunk) }) e
      let e := if full then fenceCheck tc h e else e
      let e := checksEval tc (amaxEnter e)
      if full then modLearnSt (fun l => { l with left := l.left - 1 }) e else e

/-! ## Projection and tables (R276, R278, R280) -/

/-- Heats the window still needs (R276). -/
def heatsNeeded (e : Engine) (tc : Nat) (w : Win) : Nat :=
  match lchOf e w.model with
  | none => 0
  | some lch =>
    ((List.range (winLast e tc w + 1)).map (fun m =>
      if m < w.cur then 0
      else if m = w.cur then
        2 * maxOf ((mbEntries w m).map (fun i => (chunksLeft e tc lch w i).length)) 0 - w.ordinal
      else 2 * maxOf ((mbEntries w m).map (nChunks e tc lch)) 0)).sum

/-- Recompute TRN_PROJ; a product past 48 bits is a free value (R276, DESIGN CHOICE, log entry 5)
(DEDUCED, log entry 67). -/
def projNow (tc : Nat) (e : Engine) : Engine :=
  let p := match e.learn.win, turnOf e tc with
    | some w, .opened =>
      let d := if w.heats = 0 then 0 else ceilDiv (e.time.num - w.ostr).toNat w.heats
      heatsNeeded e tc w * max e.learn.lastCost d
    | _, _ => 0
  if p < 2 ^ 48 then modLearnSt (fun l => { l with proj := p }) e
  else
    let v := (Config.counterOverflow rTRN_PROJ 0 e.free).toNat % 2 ^ 48
    { modLearnSt (fun l => { l with proj := v }) e with free := e.free + 1 }

/-- The 8-byte entry of one tensor. -/
def scaleEntry (vs : List U32) : List Byte :=
  le 4 (match vs with
    | [] => 0
    | v :: r => (r.foldl errMax v).toNat) ++ le 1 vs.length ++ zeros 3

/-- Write the scale table (R278). -/
def scaleWrite (e : Engine) : Engine :=
  if !regB e rTRN_SCALE_BASE 0 then e
  else
    let base := (reg e rTRN_SCALE_BASE).toNat / 2 ^ 15 * 2 ^ 15
    (List.range 4096).foldl (fun e t => wr (base + 8 * t) (scaleEntry (tget [] e.learn.scale t)) e) e

/-- NSEL in force. -/
def nSel (e : Engine) : Nat := min 64 (regN e rTRN_XCHK_CTRL 6 0)

/-- The checks of a non-empty learn heat (R280). -/
def checksFor (e : Engine) (tc : Nat) (w : Win) : List Check :=
  let key := brew (w4of (ten e tc).tseed) { a := 0, b := 0, c := 0, d := 0xB7E000FE#32 }
  let nt := max 1 (regN e rTRN_XCHK_CTRL 28 16)
  let pos := 2 ^ 19 * b2n w.bwd + w.ordinal % 2 ^ 19
  (List.range (nSel e)).map (fun j =>
    { tensor := (draw key w.num w.cur pos (2 * j)).toNat % nt, tilesel := draw key w.num w.cur pos (2 * j + 1) })

/-- Write the check list of heat number `num`, while EN is 1. -/
def checksWrite (num : U32) (cs : List Check) (e : Engine) : Engine :=
  if !regB e rTRN_XCHK_BASE 0 then e
  else
    let base := (reg e rTRN_XCHK_BASE).toNat / 1024 * 1024 + 512 * (num.toNat % 2)
    wr base (padTo 512 (cs.flatMap (fun c => le 2 c.tensor ++ [1, 0] ++ le 4 c.tilesel.toNat))) e

/-! ## The learn heat (R270) -/

/-- Next chunk of an entry in the current pass: smallest forward, largest backward. -/
def nextChunk (e : Engine) (tc lch : Nat) (w : Win) (entry : Nat) : Option Nat :=
  if w.bwd then (chunksLeft e tc lch w entry).getLast? else (chunksLeft e tc lch w entry).head?

/-- A LEARN_SEQ item placed: store entry, chunk, class number, item number, class. -/
structure LPlaced where
  entry : Nat
  chunk : Nat
  cls : Nat
  item : Nat
  c : RowClass

/-- Place the rollouts in packing order, each in the first LEARN_SEQ class with room (R109). -/
def learnFill (cs : List RowClass) : List (Nat × Nat) → List Nat → List LPlaced
  | [], _ => []
  | (i, k) :: xs, used =>
    match cs.zipIdx.find? (fun x => x.1.kind == 5 && decide (used[x.2]?.getD 0 < x.1.count)) with
    | none => learnFill cs xs used
    | some (c, n) =>
      { entry := i, chunk := k, cls := n, item := used[n]?.getD 0, c := c }
        :: learnFill cs xs (used.set n (used[n]?.getD 0 + 1))

def chunkSpan (e : Engine) (tc lch entry k : Nat) : Nat := min lch (rolLen e tc entry - k * lch)

/-- Bytes 24-27 of a LEARN_SEQ row (R270). -/
def lref (w : Win) : U32 := BitVec.ofNat 32 (2 ^ 31 * b2n w.bwd + 2 ^ 16 * w.cur + w.num.toNat % 2 ^ 16)

def learnRow (e : Engine) (tc lch : Nat) (w : Win) (x : LPlaced) : HRow :=
  let r := storeAt e tc x.entry
  { row := x.c.first + x.item, kind := 6, slot := x.entry, lead := x.c.first + x.item, node := 0, paired := false,
    cls := x.cls, draft := 0, tc := tc, rid := match r with
      | some r => r.rid
      | none => 0,
    lc := false, fbk := false, rollout := true, logits := false, watch := 0, pos := x.chunk * lch,
    ntok := chunkSpan e tc lch x.entry x.chunk, aseg := 0xFFFF, expset := match r with
      | some r => r.expset
      | none => 0,
    btref := lref w,
    sgrant := if !grantOn e then 0 else match (openStreams e tc).find? (fun s => s.2.cls == 3) with
      | some p => BitVec.ofNat 32 (2 ^ 31 + 3 * 2 ^ 28 + p.1)
      | none => 0,
    mask := none, adj := none, chunk := some (x.entry, x.chunk), d := parseDesc [], gen := 0, win := [], key := 0,
    dl := noDl, ft := noDl, uid := 0, tokn := 0, parent := 0, lq := 0, expanded := false, issued := false }

/-- A learn plan with its fill. -/
structure LChoice where
  entry : Nat
  plan : Plan
  placed : List LPlaced

def LChoice.key (e : Engine) (tc lch : Nat) (c : LChoice) : Nat × Nat × Nat × Nat :=
  (0, c.placed.length, (c.placed.map (fun x => chunkSpan e tc lch x.entry x.chunk)).sum, c.plan.cost)

/-- The learn plan of this boundary, with its LCH (R270, R111-R113). -/
def chooseLearn (tc : Nat) (e : Engine) : Engine × Option (Win × Nat × LChoice) :=
  match e.learn.win, turnOf e tc with
  | some w, .opened =>
    if heatsOff e then (e, none)
    else match lchOf e w.model with
      | none => (bumpOpen rHEAT_NOFIT 31 0 1 e, none)
      | some lch =>
        let first := !w.bwd && w.ordinal == 0
        let adm := (plansOf e w.model true).filter (fun p => admissible e first p.2)
        let cands := (mbEntries w w.cur).filterMap (fun i => (nextChunk e tc lch w i).map (fun k => (i, k)))
        if adm.isEmpty then (bumpOpen rHEAT_NOFIT 31 0 1 e, none)
        else
          let fills := adm.map (fun p => ({
            entry := p.1, plan := p.2,
            placed := learnFill p.2.cls cands (List.replicate p.2.cls.length 0) } : LChoice))
          match bestBy (LChoice.key e tc lch) fills with
          | none => (e, none)
          | some c => (e, some (w, lch, c))
  | _, _ => (e, none)

/-- WVER of the open window, or the owner's LVER when none is open. -/
def learnPver (e : Engine) (tc : Nat) : U16 :=
  match e.learn.win, turnOf e tc with
  | some w, .opened => w.wver
  | _, _ => (ten e tc).learn.lver

/-- Build and emit the learn heat, with the counts of the window (DEDUCED, log entry 68). -/
def learnHeat (tc : Nat) (rs : List Risk) (e : Engine) : Engine :=
  let e := fallbacks (fun _ => false) rs e
  let csr := decide (e.learn.left ≠ 0)
  let pv := learnPver e tc
  let (e, c) := chooseLearn tc e
  let e := match c with
    | none =>
      emitHeat (mkHeat e none 0xFF true csr pv [] []) (modWin (fun w => { w with heats := w.heats + 1 }) e)
    | some (w, lch, c) =>
      let rows := sortBy (fun (a b : HRow) => decide (a.row < b.row)) (c.placed.map (learnRow e tc lch w))
      let e := modLearnSt (fun l => { l with
        checks := if rows.isEmpty then [] else l.checks, digests := [], amax := [], lastCost := c.plan.cost }) e
      let e := modWin (fun w => { w with heats := w.heats + 1, ordinal := w.ordinal + b2n (!rows.isEmpty) }) e
      emitHeat (mkHeat e (some (c.entry, c.plan)) w.model true csr pv rows []) e
  markHeld [] (updateWaits [] (dlIrqs e))

/-- The cross-check list of the learn heat that this boundary starts, when it has rows (R262 step 5, R280). -/
def checksPrep (tc : Nat) (e : Engine) : Engine :=
  match (chooseLearn tc e).2 with
  | some (w, _, c) =>
    let cs := if c.placed.isEmpty then [] else checksFor e tc w
    let e := modLearnSt (fun l => { l with checks := cs }) e
    if c.placed.isEmpty then e else checksWrite e.heat.count cs e
  | none => modLearnSt (fun l => { l with checks := [] }) e

/-- Steps 5 and 6 of R262: in a learn heat its tables; then the projection. -/
def learnTables (tc : Nat) (e : Engine) : Engine :=
  projNow tc (if learning e && !inHold e then checksPrep tc (scaleWrite e) else e)

/-- Step P4 of R105 (R262): the learn owner's steps before the heat. -/
def learnSteps (e : Engine) : Engine :=
  match e.learn.owner with
  | none => e
  | some tc =>
    let e := theldPark tc (learnComplete tc e)
    let e := match turnOf e tc with
      | .turning => turnBoundary tc e
      | _ => e
    let e := match turnOf e tc with
      | .opened => passStep tc e
      | _ => e
    learnTables tc (match turnOf e tc with
      | .idle => openWindow tc e
      | _ => e)

/-! ## Commands (R259-R265, R273, R274) -/

def turnLive (e : Engine) (tc : Nat) : Nat := ((rolloutSlots e tc).filter (fun p => turnWaits p.2.e.st)).length

/-- TURN_TO_LEARN (R260, R261) (DEDUCED, log entry 66). -/
def opTurnToLearn (h : Hdr) (tc mode : Nat) (e : Engine) : Res :=
  let l := (ten e tc).learn
  let noop : Res := { status := sOK_NOOP, result := turnLive e tc, eng := e }
  match l.ls with
  | .gen =>
    if e.learn.owner.isSome || l.tokens == 0 || roBase e tc == 0 then refuse sWRONG_STATE e
    else
      let e := modLearn tc (fun l => { l with ls := .turning, park := mode == 1, turnPkts := [h] }) e
      done (turnLive e tc) (modLearnSt (fun s => { s with owner := some tc, phaseLearned := [], win := none,
                                                           deferred := [] }) e)
  | .turning =>
    if mode = 1 then
      done (turnLive e tc) (modLearn tc (fun l => { l with park := true, turnPkts := l.turnPkts ++ [h] }) e)
    else noop
  | _ => noop

/-- Index nodes computed under earlier weights go; a MOVING one goes when its MOVE completes (R265), and its ancestors
with it, for a node exists only while its parent does (R220) (DEDUCED, log entry 119). -/
def dropLearned (ms : List Nat) (e : Engine) : Engine :=
  dropSweep (modKv (fun k => { k with nodes := k.nodes.map (fun x =>
    if ms.contains x.2.model && x.2.refs == 0 then (x.1, { x.2 with dropOnMove := true }) else x) }) e)

/-- A parked request returns to a slot: ADMITTED, with a walk (R84, R223, R225). -/
def unparkTo (slot : Nat) (p : Parked) (ord : List Nat) (e : Engine) : Engine :=
  let e := placeReq slot { p.req with e := { p.req.e with st := .admitted, parkCause := 0 } } (unpark p e)
  startWalk slot (walkN (ctxOf p.req)) false ord e

/-- Release the tenant's cause-2 parked rollouts (R79, R265). -/
def turnRelease (tc : Nat) (ord : List Nat) (e : Engine) : Engine :=
  ((parkedOf e tc).filter (fun p => p.req.e.st == .parked && p.req.e.parkCause == 2)).foldl (fun e p =>
    match assignSlot e tc with
    | some slot => unparkTo slot p ord e
    | none => modParked p.entry (fun r => { r with e := { r.e with parkCause := 1 } }) e) e

def theldClear (tc : Nat) (e : Engine) : Engine :=
  (slotsOf e tc).foldl (fun e p => modEng p.1 (fun x => { x with theld := false }) e) e

/-- TURN_TO_GENERATE (R260, R265). -/
def opTurnToGenerate (ord : List Nat) (tc : Nat) (pver : U16) (e : Engine) : Res :=
  match turnOf e tc with
  | .gen => { status := sOK_NOOP, result := e.pver.toNat, eng := e }
  | .idle =>
    if verAhead e.pver pver then refuse sWRONG_STATE e
    else
      let changed := e.pver != pver
      let ms := e.learn.phaseLearned
      let defer := e.learn.deferred.flatten
      let e := { e with pver := pver }
      let e := defer.foldl (fun e i =>
        modRollout tc i (fun r => { r with st := 1, mb := 0, window := 0 }) e) e
      let e := modLearnSt (fun s => { s with owner := none, deferred := [], phaseLearned := [], win := none }) e
      let e := modLearn tc (fun l => { l with ls := .gen, park := false, turnPkts := [] }) e
      let e := turnRelease tc ord (theldClear tc e)
      done pver.toNat (if changed then dropLearned ms e else e)
  | _ => refuse sWRONG_STATE e

/-- LEARN_CONFIG (R260, R274). -/
def opLearnConfig (tc tokens window stash : Nat) (e : Engine) : Res :=
  match turnOf e tc with
  | .opened | .granted => refuse sWRONG_STATE e
  | _ => done 0 (modLearn tc (fun l => { l with tokens := tokens, window := window, stash := stash }) e)

/-- OPT_STEP_DONE (R260, R267, R273). -/
def opOptStepDone (tc : Nat) (pver : U16) (e : Engine) : Res :=
  match turnOf e tc, e.learn.win with
  | .granted, some w =>
    if !verAhead pver w.wver then refuse sWRONG_STATE e
    else
      let used := (w.mbs.flatMap (·.entries)).filter (fun i => match storeAt e tc i with
        | some r => r.st == 3
        | none => false)
      let e := used.foldl (fun e i => freeRollout tc i e) e
      let e := modLearn tc (fun l => { l with ls := .idle, lver := pver }) e
      done w.num.toNat (modLearnSt (fun s => { s with
        win := none, phaseLearned := ninsert s.phaseLearned w.model }) e)
  | _, _ => refuse sWRONG_STATE e

/-- STALENESS_CAP (R259). -/
def opStalenessCap (tc cap : Nat) (e : Engine) : Res := done 0 (modLearn tc (fun l => { l with cap := cap }) e)

/-- Teardown of the learn owner (R260): ownership, window and rollout store go; PVER stays. -/
def learnTeardown (tc : Nat) (e : Engine) : Engine :=
  if e.learn.owner ≠ some tc then e
  else
    let e := (tkeys (ten e tc).learn.store).foldl (fun e i => freeRollout tc i e) e
    let e := modLearnSt (fun s => { s with
      owner := none, win := none, deferred := [], phaseLearned := [], checks := [], digests := [], amax := [] }) e
    modLearn tc (fun l => { l with ls := .gen, park := false, turnPkts := [] }) e

end Sys2Proof.Machine
end

