-- ==== Sys2Proof/Machine/Tenants.lean ====
section
/-! DEFINITION. Tenant contexts, QoS, teardown, seeds and streams, lanes and preemption
(13_tenants_lanes_preemption.md R282-R301; 09_brew_random_streams.md R193-R195). -/

namespace Sys2Proof.Machine

/-- Opcode of a decoded packet (R64). -/
def Cmd.code : Cmd → Nat
  | .nop => 0x01 | .setStrideRate .. => 0x02 | .policyLoad .. => 0x03 | .planLoad .. => 0x04
  | .tenantOpen .. => 0x05 | .tenantClose .. => 0x06 | .tenantQos .. => 0x07 | .laneGrant .. => 0x08
  | .laneReclaim .. => 0x09 | .contextSave .. => 0x0A | .contextRestore .. => 0x0B | .resetScope .. => 0x0C
  | .powerState .. => 0x0D | .capture .. => 0x0E | .admitReq .. => 0x10 | .pause .. => 0x11
  | .resume .. => 0x12 | .cancel .. => 0x13 | .setBudget .. => 0x14 | .handoff .. => 0x15
  | .regionPublish .. => 0x16 | .modelRegister .. => 0x20 | .modelEvict .. => 0x21
  | .adapterRegister .. => 0x22 | .adapterRetire .. => 0x23 | .expertSet .. => 0x24
  | .turnToLearn .. => 0x30 | .turnToGenerate .. => 0x31 | .learnConfig .. => 0x32
  | .optStepDone .. => 0x33 | .stalenessCap .. => 0x34 | .seedSet .. => 0x40 | .streamOpen .. => 0x41
  | .streamClose .. => 0x42 | .counterLatch .. => 0x50 | .watchSet .. => 0x51

/-- Answer the accepted packets of a ring with a status (R72). -/
def answerRing (tc status : Nat) (e : Engine) : Engine :=
  let acc := (ten e tc).ring.accepted
  let e := modRing tc (fun r => { r with accepted := [] }) e
  acc.foldl (fun e a => reply a.h a.cmd.code status 0 e) e

def clearCrEn (tc : Nat) (e : Engine) : Engine := setRegF (rCP_RING_CTRL tc) 0 0 0 e
def clearSrEn (tc : Nat) (e : Engine) : Engine := setRegF (rCP_RING_CTRL tc) 1 1 0 e

/-! ## QoS records (R92, R289, R290) -/

def parseQos (b : List Byte) : Qos := {
  lcShare := min 16384 (fieldAt b 4 2), dpShare := min 4096 (max 1 (fieldAt b 6 2)),
  beWeight := min 16777216 (fieldAt b 8 4), slotQuota := min 65536 (fieldAt b 12 4),
  parkQuota := min 4194304 (fieldAt b 16 4), memShare := min 4096 (max 1 (fieldAt b 20 2)),
  slowThr := fieldAt b 22 2 }

/-- The smallest VT among the other open tenants whose BE_WEIGHT is not 0 (R92). -/
def vtJoin (e : Engine) (tc : Nat) : U64 :=
  let vs := ((tenants e).filter (fun t => t != tc && isOpen e t && (ten e t).qos.beWeight != 0)).map
    (fun t => (ten e t).vt.toNat)
  BitVec.ofNat 64 (minOf vs 0)

/-- Read a QoS record: the status that refuses it, or the record. -/
def readQos (e : Engine) (addr : Nat) (err : Bool) : Nat × Qos :=
  if err || badRange e addr 64 then (sMEM_ERROR, Qos.none)
  else if rdN e addr 1 ≠ 4 then (sBAD_VERSION, Qos.none)
  else (0, parseQos (rd e addr 64))

/-! ## Context states (R282-R288) -/

/-- Counters of the tenant page and of group TENANT at zero, vectors disabled and unmasked (R284, R365)
(DEDUCED, log entry 70). -/
def pageReset (tc : Nat) (e : Engine) : Engine :=
  let e := setReg (rRQT_DL_TCNT tc) 0 (setReg (rTRN_TSTAT tc) 0 (setReg (rLANE_TSLOW tc) 0 e))
  let e := (List.range 8).foldl (fun e v => setReg (vecCtrl (.tv (BitVec.ofNat 8 tc) (BitVec.ofNat 3 v))) 0 e) e
  { e with cnt := e.cnt.filter (fun c => c.1 < tcntKey tc 0 || tcntKey tc 31 < c.1) }

/-- TENANT_OPEN (R193, R274, R284). -/
def opTenantOpen (tc addr : Nat) (err : Bool) (e : Engine) : Res :=
  let t := ten e tc
  match t.st with
  | .free =>
    if tc = 0 then refuse sWRONG_STATE e
    else
      let (st, q) := readQos e addr err
      if st ≠ 0 then refuse st e
      else
        let t' : Tenant := { t with
          st := .opened, fclass := 0, qos := q, vt := vtJoin e tc, closeAsked := false,
          tseed := BitVec.ofNat 128 tc, opencnt := 0, streams := [], learn := TLearn.fresh e.pver,
          dl := { late := 0, fbk := 0, risk := 0 }, smax := 0 }
        done 0 (pageReset tc (setTen tc t' e))
  | _ => refuse sWRONG_STATE e

/-- A request enters a terminal state with its context (R79, R81): `now` without a hold. -/
def endAll (tc : Nat) (st : RState) (reason : Nat) (now : Bool) (e : Engine) : Engine :=
  let f (r : Req) : Req :=
    if terminal r.e.st then (if now then { r with w := { r.w with freeNext := true } } else r)
    else endRec st reason 0 (if now then none else holdTo e) now r
  let e := (tkeys (slotsOf e tc)).foldl (fun e s => modReq s f e) e
  ((parkedOf e tc).map (·.entry)).foldl (fun e k => modParked k f e) e

/-- TENANT_CLOSE (R72, R79, R238, R283, R288). -/
def opTenantClose (tc mode : Nat) (e : Engine) : Res :=
  let ans (st : Nat) (e : Engine) : Res := { status := st, result := reqCount e tc, eng := e }
  let abort (e : Engine) : Engine :=
    clearCrEn tc (answerRing tc sTORN (endAll tc .cancelled 7 false (tenantAborts tc e)))
  if tc = 0 then refuse sWRONG_STATE e
  else match (ten e tc).st with
    | .free => refuse sWRONG_STATE e
    | .torn => ans 0 (modTen tc (fun t => { t with closeAsked := true }) e)
    | .opened =>
      let e := modTen tc (fun t => { t with st := .closing }) e
      ans 0 (if mode = 1 then abort e else e)
    | .closing => if mode = 1 then ans 0 (abort e) else ans sOK_NOOP e

/-- TENANT_QOS (R92, R289, R290). -/
def opTenantQos (tc addr : Nat) (err : Bool) (e : Engine) : Res :=
  let (st, q) := readQos e addr err
  if st ≠ 0 then refuse st e
  else
    let t := ten e tc
    let vt := if t.qos.beWeight = 0 ∧ q.beWeight ≠ 0 then vtJoin e tc else t.vt
    done 0 (setTen tc { t with qos := q, vt := vt } e)

/-! ## Lanes (R293-R301) -/

/-- A reclaim loses a lane it waits for; the last one completes it (R300, R399). -/
def reclaimDrop (lane : Nat) (e : Engine) : Engine :=
  let rs := e.lanes.reclaims.map (fun r => { r with lanes := r.lanes.filter (· != lane) })
  let ended := (rs.filter (fun r => r.lanes.isEmpty))
  let e := { e with lanes := { e.lanes with reclaims := rs.filter (fun r => !r.lanes.isEmpty) } }
  ended.foldl (fun e r =>
    let (m, e) := openU32 (e.time.stamp - r.stamp).toNat e
    opComplete r.h { e with lanes := { e.lanes with swPred := r.pred, swMeas := m } }) e

/-- RELEASE orders to the lanes of a tenant in a state of `sts` (R285, R287, R295). -/
def releaseLanes (tc : Nat) (e : Engine) : Engine :=
  (lanesOf e tc [.granted, .saving]).foldl (fun e l =>
    let e := setLane l { laneOf e l with st := .releasing } e
    reclaimDrop l (laneOrder l 4 tc 0 0 e)) e

/-- DEDUCED, log entry 71. -/
def laneFree (l : Nat) (e : Engine) : Engine := setLane l { laneOf e l with st := .free, tc := 0, order := none } e

/-- Whether a lane report of a KIND names an order of the lane (R295, R296, R399). -/
def laneNamed (kind : Nat) (x : Lane) : Bool :=
  match kind, x.st with
  | 3, .saving => true
  | 4, .granted => x.order.isSome
  | 5, .releasing => true
  | _, _ => false

/-- A lane report that names an order takes effect: SAVED, RESUMED or RELEASED (R295, R296)
(DEDUCED, log entry 90). -/
def laneReport (kind lane : Nat) (e : Engine) : Engine :=
  let x := laneOf e lane
  match kind, x.st with
  | 3, .saving => reclaimDrop lane (laneFree lane e)
  | 4, .granted => setLane lane { x with order := none } e
  | 5, .releasing => laneFree lane e
  | _, _ => e

def maskLanes (m : U64) : List Nat := (List.range 64).filter (fun l => m.getLsbD l)

/-- Lanes become GRANTED to a tenant, with a RESUME order each. -/
def grantLanes (tc : Nat) (ls : List Nat) (e : Engine) : Engine :=
  ls.foldl (fun e l => laneOrder l 3 tc 0 0 (setLane l { laneOf e l with st := .granted, tc := tc } e)) e

def heldLanes (e : Engine) (tc : Nat) : Nat := (lanesOf e tc [.granted]).length

/-- LANE_GRANT (R293). -/
def opLaneGrant (tc : Nat) (mask : U64) (e : Engine) : Res :=
  let ls := maskLanes mask
  if closing e tc then refuse sTORN e
  else if ls.any (fun l => (laneOf e l).st != .free) then refuse sIN_USE e
  else
    let e := grantLanes tc ls e
    done (heldLanes e tc) e

/-- The bytes of a tenant's live-range map, which preparation reads (R299). -/
def laneMapSpan (e : Engine) (tc : Nat) : Option (Nat × Nat) :=
  let base := (reg e (rLANE_TMAP tc)).toNat / 4096 * 4096
  if base = 0 then none else some (base, 16 * 2 ^ min 20 (regN e (rLANE_TMAP tc) 4 0))

/-- Live-range map entry of a lane: VANY, VCHEAP, TCHEAP (R299). -/
def laneMap (e : Engine) (tc lane : Nat) (err : Bool) : Nat × Nat × Nat :=
  let no := (regN e rLANE_VDEF 31 0, 0, 0xFFFFFFFF)
  let base := (reg e (rLANE_TMAP tc)).toNat / 4096 * 4096
  match (laneOf e lane).region with
  | none => no
  | some r =>
    let a := base + 16 * r.toNat
    if base = 0 ∨ 2 ^ regN e (rLANE_TMAP tc) 4 0 ≤ r.toNat ∨ err ∨ badRange e a 16 then no
    else (rdN e a 4, rdN e (a + 4) 4, rdN e (a + 8) 4)

/-- The prediction for one lane: the cheap point chosen, PRED in ns (R300). -/
def lanePred (vin budget : Nat) (v : Nat × Nat × Nat) : Bool × Nat :=
  let pc := ceilDiv (200 * (v.2.2 + 1100) + 1024 * (v.2.1 + vin)) 200
  let pa := ceilDiv (200 * (3500 + 1100) + 1024 * (v.1 + vin)) 200
  let cheap := v.2.2 != 0xFFFFFFFF && (budget == 0 || decide (pc ≤ budget) || decide (pc ≤ pa))
  (cheap, if cheap then pc else pa)

/-- The reply of a reclaim still waits for space in its status ring (R55). -/
def replyWaits (e : Engine) (h : Hdr) : Bool :=
  (ten e h.ring.toNat).ring.waiting.any (fun n => n.kind == 0 && n.opcode == 0x09 && n.ridx == h.ridx.setWidth 16)

/-- The orders of a reclaim whose reply is written; the measured time starts there (R300). -/
def reclaimIssue (e : Engine) (r : Reclaim) : Engine :=
  (r.due.filter (fun d => r.lanes.contains d.lane)).foldl (fun e d =>
    laneOrderAt r.istr d.lane d.op (laneOf e d.lane).tc d.region d.pred e) e

/-- Issue the STOP orders of every reclaim whose reply is written: the reply precedes them (R60, R66, R300). -/
def reclaimOrders (e : Engine) : Engine :=
  let out (r : Reclaim) : Bool := !r.due.isEmpty && !replyWaits e r.h
  let rs := e.lanes.reclaims.map (fun r => if out r then { r with due := [], stamp := e.time.stamp } else r)
  (e.lanes.reclaims.filter out).foldl reclaimIssue { e with lanes := { e.lanes with reclaims := rs } }

/-- LANE_RECLAIM (R300, R301): the lanes are SAVING, and their orders follow the reply. -/
def opLaneReclaim (h : Hdr) (tc : Nat) (mask : U64) (budget : Nat) (err : Bool) (e : Engine) : Res :=
  let ls := maskLanes mask
  if ls.any (fun l => (laneOf e l).st != .granted || (laneOf e l).tc != tc) then refuse sNO_SUCH_OBJECT e
  else
    let vin := regN e rLANE_VIN 31 0
    let ps := ls.map (fun l => (l, lanePred vin budget (laneMap e tc l err)))
    let worst := maxOf (ps.map (fun p => p.2.2)) 0
    let (pw, e) := openU32 worst e
    let (due, e) := ps.foldl (fun (x : List LaneDue × Engine) p =>
      let (pr, e) := openU32 p.2.2 x.2
      (x.1 ++ [{ lane := p.1, op := if p.2.1 then 1 else 2, region := (laneOf e p.1).region.getD 0, pred := pr }],
        setLane p.1 { laneOf e p.1 with st := .saving } e)) ([], e)
    done worst { e with lanes := { e.lanes with
      reclaims := e.lanes.reclaims
        ++ [{ h := h, lanes := ls, pred := pw, stamp := e.time.stamp, istr := e.time.num, due := due }] } }

/-- What a packet's reply lets go: STOP orders of a reclaim, and a reclaim of no lanes, which waits for nothing. -/
def reclaimSweep (e : Engine) : Engine := reclaimDrop 64 (reclaimOrders e)

/-- The COUNT lanes of `free` with the highest score, ties to the lower lane (R297). -/
def adviseLanes (free : U64) (masks : List U64) (count : Nat) : List Nat :=
  let score (l : Nat) : Nat := (masks.filter (fun m => m.getLsbD l)).length
  let cand := (maskLanes free).map (fun l => (l, score l))
  ((sortBy (fun (a b : Nat × Nat) => decide (b.2 < a.2)) cand).take count).map (·.1)

def freeLanes (e : Engine) : U64 := setBits ((List.range 64).filter (fun l => (laneOf e l).st == .free))

def modelLanes (e : Engine) (m : Nat) : U64 :=
  match tget? e.models m with
  | some x => x.lanes
  | none => 0

/-- What R297 reads of a boundary, recorded at it. -/
def laneSnap (e : Engine) : Engine :=
  { e with lanes := { e.lanes with
    bFree := freeLanes e,
    bReqs := (e.rq.slots.map (·.2) ++ (e.rq.parked.map (·.req)).filter (fun r => r.e.st != .parked)).map
      (fun r => (r.tc, modelLanes e r.d.model)) } }

/-- Compute LANE_ADV from LANE_ADV_SEL (R297). -/
def laneAdvise (e : Engine) : Engine :=
  let tc := regN e rLANE_ADV_SEL 7 0
  let ms := (e.lanes.bReqs.filter (fun p => p.1 == tc)).map (·.2)
  { e with lanes := { e.lanes with adv := setBits (adviseLanes e.lanes.bFree ms (regN e rLANE_ADV_SEL 14 8)) } }

/-- The step report of a lane for the heat of `model` begun at `start` with `cost`, sampled at the current stride
(R298). -/
def stepSample (lane : Nat) (start : Stride) (cost model : Nat) (e : Engine) : Engine :=
  if !(modelLanes e model).getLsbD lane then e
  else
    let s := min 0xFFFF (256 * (e.time.num - start).toNat / max 1 cost)
    let x := laneOf e lane
    let e := setLane lane { x with slast := s, smax := max x.smax s } e
    match x.st with
    | .free => e
    | _ =>
      let t := ten e x.tc
      let e := setTen x.tc { t with smax := max t.smax s } e
      if t.qos.slowThr ≠ 0 ∧ t.qos.slowThr < s then
        bumpSat (rLANE_TSLOW x.tc) 15 0 1 { e with lanes := { e.lanes with slow := true } }
      else e

/-- Raise the slowdown vector once at the boundary that follows an event (R298). -/
def slowIrq (e : Engine) : Engine :=
  if !e.lanes.slow then e
  else
    let e := { e with lanes := { e.lanes with slow := false } }
    if regB e rLANE_CTRL 31 then raiseVec (.pv (BitVec.ofNat 5 (regN e rLANE_CTRL 4 0))) e else e

/-! ## Teardown (R287, R288, R398) -/

/-- Messages of a teardown: one on each enabled vector (R287) (DEDUCED, log entry 69). -/
def tearMessages (tc : Nat) (e : Engine) : Engine :=
  (List.range 8).foldl (fun e v => lastRaise (.tv (BitVec.ofNat 8 tc) (BitVec.ofNat 3 v)) e) e

/-- Tear a tenant context down (R287): `cls` the fault class, `ans` the status of its open packets. A context
that is TORN, FREE or TC0 is not torn down (R282). -/
def tearDown (tc cls ans : Nat) (e : Engine) : Engine :=
  if tc = 0 ∨ !isOpen e tc then e
  else
    let e := tenantAborts tc e
    let e := modTen tc (fun t => { t with st := .torn, fclass := BitVec.ofNat 8 cls, closeAsked := false }) e
    let e := endAll tc .failed 8 true e
    let e := clearCrEn tc (answerRing tc ans e)
    let e := retireTenant tc (closeStreams tc (fun _ _ => true) (learnTeardown tc e))
    let e := xsetDisown (fun _ x => x.owner == some tc) e
    let e := tearMessages tc (releaseLanes tc e)
    notice 0 0x41 cls tc e

/-- A context becomes FREE at a boundary (R285, R288, R421). -/
def toFree (tc : Nat) (e : Engine) : Engine :=
  let e := clearSrEn tc (clearCrEn tc e)
  let e := modTen tc (fun t => { t with st := .free, closeAsked := false }) e
  notice 0 0x41 0 tc { e with regions := e.regions.filter (fun p => p.1 / 2 ^ 32 != tc) }

/-- One context at a boundary, after the terminal holds. -/
def tenantBoundary (tc : Nat) (e : Engine) : Engine :=
  if tc = 0 ∨ reqCount e tc ≠ 0 then e
  else match (ten e tc).st with
    | .closing =>
      let e := retireTenant tc (closeStreams tc (fun _ _ => true) e)
      let e := xsetDisown (fun _ x => x.owner == some tc) e
      toFree tc (releaseLanes tc e)
    | .torn =>
      if (ten e tc).closeAsked && (lanesOf e tc [.granted, .saving, .releasing]).isEmpty then toFree tc e else e
    | _ => e

/-! ## Seeds and streams (R193-R195) -/

/-- SEED_SET (R193). -/
def opSeedSet (tc : Nat) (key : U128) (e : Engine) : Res :=
  if reqCount e tc ≠ 0 ∨ !(openStreams e tc).isEmpty then refuse sWRONG_STATE e
  else done 0 (modTen tc (fun t => { t with tseed := key, opencnt := 0 }) e)

/-- The request a RID names in a state other than FREE. -/
def anyReq (e : Engine) (tc : Nat) (rid : U32) : Option Req :=
  match lookup e tc rid with
  | .slot _ r => some r
  | .parked p => some p.req
  | .none => none

/-- STREAM_OPEN (R71, R194, R197). -/
def opStreamOpen (tc cls : Nat) (rid : U32) (e : Engine) : Res :=
  let t := ten e tc
  let rq := anyReq e tc rid
  let taken := (openStreams e tc).any (fun s => s.2.cls == cls && (cls == 3 || (cls == 2 && s.2.rid == rid)))
  if cls = 2 ∧ rq.isNone then refuse sNO_SUCH_RID e
  else if cls = 2 ∧ rq.any (fun r => terminal r.e.st) then refuse sWRONG_STATE e
  else match firstFree (tkeys t.streams) 1 16 with
    | none => refuse sQUOTA e
    | some n =>
      if taken then refuse sQUOTA e
      else
        let s : Strm := { cls := cls, rid := rid, base := t.opencnt, clearing := false,
                          salt := if cls = 2 then (match rq with
                            | some r => r.d.salt
                            | none => 0) else 0 }
        done n (grantWrite tc n s (setTen tc { t with
          streams := tset t.streams n s, opencnt := t.opencnt + 1 } e))

/-- STREAM_CLOSE (R195). -/
def opStreamClose (tc n : Nat) (e : Engine) : Res :=
  if (openStreams e tc).any (fun s => s.1 == n) then done 0 (closeStreams tc (fun k _ => k == n) e)
  else refuse sNO_SUCH_OBJECT e

/-- A ROW stream closes with the terminal hold of its request (R195). -/
def rowStreamClose (tc : Nat) (rid : U32) (e : Engine) : Engine :=
  closeStreams tc (fun _ s => s.cls == 2 && s.rid == rid) e

end Sys2Proof.Machine
end

