-- ==== Sys2Proof/Machine/Context.lean ====
section
/-! DEFINITION. Context save and restore (13_tenants_lanes_preemption.md R303-R306). -/

namespace Sys2Proof.Machine

/-- Requests a context image holds, with OLDSLOT: slots in order, then the spill area in order of parking. -/
def savedReqs (e : Engine) (tc : Nat) : List (Nat × Req) :=
  ((slotsOf e tc) ++ (parkedOf e tc).map (fun (p : Parked) => (0xFFFFFFFF, p.req))).filter (fun p => !terminal p.2.e.st)

def streamBytes (s : Option Strm) : List Byte :=
  match s with
  | some s => le 1 s.cls ++ zeros 3 ++ le 4 s.rid.toNat ++ le 4 s.salt.toNat ++ le 4 s.base.toNat
  | none => zeros 16

/-- The context image without its CRC (R303). -/
def imageRaw (e : Engine) (tc : Nat) (rs : List (Nat × Req)) : List Byte :=
  let t := ten e tc
  let o := openStreams e tc
  le 4 0x7A435458 ++ [4] ++ le 1 (regN e rCP_IPREV 23 16) ++ le 1 tc ++ le 1 (heldLanes e tc)
    ++ le 4 (384 + 256 * rs.length) ++ zeros 4 ++ le 6 e.time.num.toNat ++ le 2 t.learn.cap ++ le 4 rs.length
    ++ le 4 t.opencnt.toNat ++ le 16 t.tseed.toNat ++ le 8 t.learn.stash ++ le 4 t.learn.tokens
    ++ le 2 t.learn.window ++ le 2 t.learn.lver.toNat ++ zeros 80
    ++ (List.range 15).flatMap (fun i => streamBytes (tget? o (i + 1)))
    ++ rs.flatMap (fun r => recBytes r.2 0 ++ le 4 r.1 ++ zeros 124)

/-- CONTEXT_SAVE (R303). -/
def opContextSave (tc addr bytes : Nat) (e : Engine) : Res :=
  let rs := savedReqs e tc
  let n := 384 + 256 * rs.length
  if bytes < n then refuse sQUOTA e
  else
    let raw := imageRaw e tc rs
    done n (wr addr (patch raw 12 (le 4 (crc32c raw).toNat)) e)

/-- One request entry of an image: its index, OLDSLOT, its record. -/
structure Entry1 where
  idx : Nat
  old : Nat
  d : Desc
  g : EngRec
  st : Nat

def imageEntry (img : List Byte) (i : Nat) : Entry1 :=
  let b := (img.drop (384 + 256 * i)).take 256
  { idx := i, old := fieldAt b 128 4, d := parseDesc b, g := parseEng b, st := byteAt b 96 % 16 }

/-- MAGIC, BYTES, CRC, stream classes, states and RIDs of an image are right (R304). -/
def imageOk (img : List Byte) (bytes : Nat) : Bool :=
  let n := fieldAt img 24 4
  let len := 384 + 256 * n
  fieldAt img 0 4 == 0x7A435458 && fieldAt img 8 4 == len && decide (len ≤ bytes)
    && ((let z := (List.range n).foldl (fun im i => patch im (384 + 256 * i + 132) (zeros 4)) (img.take len)
         crcOk z 12)
      && (List.range 15).all (fun k => [0, 2, 3, 4].contains (byteAt img (128 + 16 * (k + 1))))
      && (let es := (List.range n).map (imageEntry img)
          es.all (fun x => match stOf x.st with
            | some s => !terminal s
            | none => false)
            && (es.map (fun x => x.d.rid)).eraseDups.length == n))

/-- Streams of an image. -/
def imageStreams (img : List Byte) : Table Strm :=
  (List.range 15).filterMap (fun k =>
    let b := (img.drop (128 + 16 * (k + 1))).take 16
    if byteAt b 0 = 0 then none
    else some (k + 1, { cls := byteAt b 0, rid := BitVec.ofNat 32 (fieldAt b 4 4), clearing := false,
                        salt := BitVec.ofNat 32 (fieldAt b 8 4), base := BitVec.ofNat 32 (fieldAt b 12 4) }))

/-- Slots the tenant may take, and spill room (R77, R78). -/
def restoreRoom (e : Engine) (tc : Nat) : Nat :=
  let q := (ten e tc).qos
  let spill := if spillOn e then 2 ^ regN e rRQT_SPILL_CTRL 4 0 - e.rq.parked.length else 0
  min q.slotQuota (65536 - e.rq.slots.length) + min q.parkQuota spill

/-- Order of restoration: LC first, then PRIO descending, then OLDSLOT ascending (R305). -/
def entryLt (a b : Entry1) : Bool :=
  if a.d.lc != b.d.lc then a.d.lc
  else if a.d.prio ≠ b.d.prio then decide (b.d.prio < a.d.prio)
  else decide (a.old < b.old)

/-- A deadline moved from the save stride to the effect stride. -/
def moveDl (e : Engine) (sstr d : Stride) : Stride :=
  if d = noDl then noDl else deadline (d + (e.time.num - sstr)) 0

/-- The request of an entry as restored; its penalty window is rebuilt once it has a slot (DEDUCED, log entry 73). -/
def restoreReq (e : Engine) (tc uid : Nat) (sstr : Stride) (lastV : U16) (x : Entry1) : Req :=
  let paused := x.g.st == .paused
  { tc := tc, d := x.d,
    e := { x.g with
      st := if paused then .paused else .admitted, theld := false, parkCause := 0, wait := 0,
      dl := moveDl e sstr x.g.dl, ft := moveDl e sstr x.g.ft },
    w := { Work.fresh with
      aslot := (pinOf e tc x.d x.g.pinVer).getD none, winDue := x.g.gen != 0,
      watch := (ten e tc).dflt, uid := uid, lastPver := lastV, kvposPause := x.g.kvpos,
      notBefore := some (e.time.num + 1) } }

/-- A restore under way: the engine, the requests parked and failed so far, and those still without a place, each with
its entry. -/
structure Restore where
  eng : Engine
  parked : Nat
  failed : Nat
  rest : List (Entry1 × Req)

/-- NEWSLOT of an entry is written (R305 step 6). -/
def newSlot (addr : Nat) (x : Entry1) (v : Nat) (e : Engine) : Engine := wrN (addr + 384 + 256 * x.idx + 132) 4 v e

/-- A restored request takes a slot; PROMPT_ADDR 0 fails it. -/
def restoreAt (ord : List Nat) (addr slot : Nat) (x : Entry1) (r : Req) (s : Restore) : Restore :=
  let e := placeReq slot r s.eng
  if x.d.promptAddr = 0 then { s with eng := newSlot addr x 0xFFFFFFFE (failSlot slot e), failed := s.failed + 1 }
  else
    let e := if r.e.st = .paused then e else startWalk slot (walkN (ctxOf r)) false ord e
    { s with eng := newSlot addr x slot e }

/-- Step 2 for one request: a slot under R77, unless the image holds it parked. -/
def restoreSlot (ord : List Nat) (tc addr : Nat) (sstr : Stride) (s : Restore) (x : Entry1) : Restore :=
  let (uid, e) := takeUid s.eng
  let (lv, e) := takeFree e
  let r := restoreReq e tc uid sstr (lv.setWidth 16) x
  let s := { s with eng := e }
  match x.g.st == .parked, assignSlot e tc with
  | false, some slot => restoreAt ord addr slot x r s
  | _, _ => { s with rest := s.rest ++ [(x, r)] }

/-- A request that has no slot is parked, while there is room; PROMPT_ADDR 0 fails it. -/
def restorePark (ord : List Nat) (tc addr : Nat) (s : Restore) (p : Entry1 × Req) : Restore :=
  match parkRoom s.eng tc, assignSlot s.eng tc with
  | some entry, _ =>
    let e := parkAt entry 1 p.2 s.eng
    if p.1.d.promptAddr = 0 then
      { s with eng := newSlot addr p.1 0xFFFFFFFE (endParked entry .failed 9 e), failed := s.failed + 1 }
    else { s with eng := newSlot addr p.1 0xFFFFFFFF e, parked := s.parked + 1 }
  | none, some slot => restoreAt ord addr slot p.1 p.2 s
  | none, none => s

/-- The requests of an image in the order of R305, those left without a slot in that of R83
(DEDUCED, log entry 73). -/
def restoreAll (ord : List Nat) (tc addr : Nat) (sstr : Stride) (es : List Entry1) (e : Engine) : Restore :=
  let s := (sortBy entryLt es).foldl (restoreSlot ord tc addr sstr) { eng := e, parked := 0, failed := 0, rest := [] }
  let rest := sortBy (fun a b => parkBefore s.eng (a.1.old, a.2) (b.1.old, b.2)) s.rest
  rest.foldl (restorePark ord tc addr) { s with rest := [] }

/-- Lanes granted at a restore, chosen as by R297 among the lanes now FREE. -/
def restoreLanes (tc n : Nat) (e : Engine) : List Nat :=
  adviseLanes (freeLanes e) ((slotsOf e tc).map (fun p => modelLanes e p.2.d.model)) n

/-- CONTEXT_RESTORE (R65, R208, R304, R305). A stream of the image takes the place of a closed one that is not yet free
under its number (DESIGN CHOICE, log entry 112). -/
def opContextRestore (ord : List Nat) (tc addr bytes : Nat) (err : Bool) (e : Engine) : Res :=
  if err || badRange e addr bytes then refuse sMEM_ERROR e
  else if bytes < 384 then refuse sBAD_IMAGE e
  else
    let img := rd e addr bytes
    if byteAt img 4 ≠ 4 then refuse sBAD_VERSION e
    else if !imageOk img bytes then refuse sBAD_IMAGE e
    else
      let n := fieldAt img 24 4
      let es := (List.range n).map (imageEntry img)
      if closing e tc || reqCount e tc != 0 || !(openStreams e tc).isEmpty || turnOf e tc != .gen
          || es.any (fun x => !recPresent e tc x.d x.g.pinVer) || decide (restoreRoom e tc < n) then
        refuse sWRONG_STATE e
      else
        let sstr := BitVec.ofNat 48 (fieldAt img 16 6)
        let e := modTen tc (fun t => { t with
          tseed := BitVec.ofNat 128 (fieldAt img 32 16), opencnt := BitVec.ofNat 32 (fieldAt img 28 4),
          streams := (imageStreams img).foldl (fun s x => tset s x.1 x.2) t.streams,
          learn := { t.learn with
            cap := fieldAt img 22 2, stash := fieldAt img 48 8, tokens := fieldAt img 56 4,
            window := fieldAt img 60 2, lver := BitVec.ofNat 16 (fieldAt img 62 2) } }) e
        let s := restoreAll ord tc addr sstr es (grantTenant tc e)
        let (e, pk, fl) := (s.eng, s.parked, s.failed)
        let ls := restoreLanes tc (byteAt img 7) e
        let e := grantLanes tc ls e
        let e := setReg rCP_RESTORE_STAT (BitVec.ofNat 64 (pk * 2 ^ 40 + fl * 2 ^ 16 + ls.length)) e
        { status := if pk = 0 then 0 else sOK_PARKED, result := pk, eng := e }

end Sys2Proof.Machine
end

