-- ==== Sys2Proof/Machine/Power.lean ====
section
/-! DEFINITION. Power states, entry and wake, supplies, engine reset and retention, Steep load
(15_power_supplies_bringup.md; 17 R396; 18 R406; 19 R413, R414; 01 R16). -/

namespace Sys2Proof.Machine

def modPwr (f : PwrSt → PwrSt) (e : Engine) : Engine := { e with pwr := f e.pwr }

/-! ## State codes (R345) -/

/-- The unit a scope names: 0-3 a quadrant, 4 the engine. -/
def unitOf (q : Option Quad) : Nat :=
  match q with
  | some x => x.toNat
  | none => 4

def unitEntering (e : Engine) (u : Nat) : Bool :=
  e.pwr.stopping.any (fun x => unitOf x.quad == u) || e.pwr.entry.any (fun x => unitOf x.quad == u)

def unitWaking (e : Engine) (u : Nat) : Bool := e.pwr.waking.any (fun x => unitOf x.quad == u)

/-- State code PWR_STATE shows for a unit; a quadrant is in transition with the engine. -/
def unitCode (e : Engine) (u : Nat) : Nat :=
  if unitWaking e u || unitWaking e 4 then 7
  else if unitEntering e u || unitEntering e 4 then 6
  else unitState e u

def setUnit (q : Option Quad) (st : Nat) (e : Engine) : Engine :=
  match q with
  | some x => modPwr (fun p => { p with quads := tset p.quads x.toNat st }) e
  | none => modPwr (fun p => { p with eng := st, quads := [] }) e

/-- A heat is still computing: a drain port has no step-done for it (R140). -/
def heatBusy (e : Engine) : Bool :=
  match e.heat.cur with
  | some h => h.done != 0xF
  | none => false

/-! ## Time base stop and restart (R48, R364) -/

/-- TBCLK stops: the last stamp and the current stride go to the retention region. -/
def tbStop (lock : Bool) (e : Engine) : Engine :=
  if !e.time.tbRun then e
  else { e with time := { e.time with
    tbRun := false, lockLost := lock, lostStamp := e.time.stamp, retStride := e.time.num } }

/-- Every present peer departs at the first stride after the engine's own discontinuity (R327). -/
def peersDrop (e : Engine) : Engine := e.relay.peers.foldl (fun e p => addExt (.leave p.2.id 3) e) e

/-- TBCLK restarts in a new epoch and a discontinuity record is written with the last registered stride: after a reset,
the one in the retention region. -/
def tbRestart (e : Engine) : Engine :=
  if e.time.tbRun then e
  else
    let old := e.time.epoch
    let lock := e.time.lockLost
    let last := if e.time.valid then e.time.num else e.time.retStride
    let e := { e with time := { e.time with
      tbRun := true, lockLost := false, epoch := old + 1, stamp := 0, winBad := true, strideStamp := 0 } }
    peersDrop (discRec false lock (!lock) old (old + 1) last e.time.lostStamp e)

/-! ## Retention (R19, R340, R406) -/

/-- Fields of the retention region outside the tenant anchors and the Brew registry, carried from `old` into
the state after a reset. -/
def retained (old e : Engine) : Engine :=
  let regs := [rKET_CTRL, rPWR_ENTRY, rPWR_STEEP_BASE]
  let e := regs.foldl (fun e o => setReg o (reg old o) e) e
  { e with
    mem := old.mem, bad := old.bad, free := old.free, ket := old.ket,
    time := { e.time with epoch := old.time.epoch, retStride := old.time.retStride, lostStamp := old.time.lostStamp,
                          tbRun := old.time.tbRun, lockLost := old.time.lockLost },
    lead := { e.lead with held := old.lead.held, leaseStr := old.lead.leaseStr,
                          epoch := (old.lead.held.map (fun x => x.2)).foldl
                            (fun m x => if m.toNat < x.toNat then x else m) 0 },
    flt := { e.flt with recs := old.flt.recs, recNo := old.flt.recNo },
    hang := old.hang.map (fun x => (x.1, { x.2 with frozen := false })),
    pwr := { e.pwr with
      digest := old.pwr.digest, steepLen := old.pwr.steepLen, bor := old.pwr.bor, retlost := old.pwr.retlost,
      retlostSticky := old.pwr.retlostSticky, holdRstN := old.pwr.holdRstN, holdBor := old.pwr.holdBor,
      holdTest := old.pwr.holdTest, placementBad := old.pwr.placementBad, testInstr := old.pwr.testInstr,
      coreOk := old.pwr.coreOk, lastKat := old.pwr.lastKat, repair := old.pwr.repair, failing := old.pwr.failing } }

/-- Seed and streams of a context are lost with the Brew registry, its open count with its anchor. -/
def brewLost (tc : Nat) (e : Engine) : Engine :=
  modTen tc (fun t => { t with tseed := BitVec.ofNat 128 tc, streams := [], opencnt := 0 }) e

/-- The retention region is invalid: steps 1 to 5 of R340 (DEDUCED, log entry 29). A Steep image that ran is no longer
the retained one; what a context holds in its own registers stays, its anchor is gone. -/
def retentionInvalid (e : Engine) : Engine :=
  let e := (tenants e).foldl (fun e tc => brewLost tc e) e
  let e := setReg rPWR_ENTRY 0 (setReg rPWR_STEEP_BASE 0 (setReg rKET_CTRL 1 e))
  let e := { e with
    time := { e.time with epoch := 0, retStride := 0, lostStamp := 0, valid := false, afterWake := false,
                          nsps := 0x03E80000 },
    lead := { e.lead with held := [], leaseStr := [], epoch := if e.lead.pacer.isSome then e.lead.epoch else 0 },
    flt := { e.flt with recs := [] }, hang := [],
    pwr := { e.pwr with digest := 0, steepLen := 0, retlostSticky := false, retlost := true,
                        anchorLost := tenants e } }
  discRec true false false 0 0 0 0 e

/-- An exit from reset or a wake with RETLOST set (R340): the stamps start again, in epoch 0. -/
def retCheck (e : Engine) : Engine :=
  if !e.pwr.retlostSticky then e
  else peersDrop (retentionInvalid { e with time := { e.time with
    tbRun := true, lockLost := false, stamp := 0, strideStamp := 0, winBad := true } })

/-! ## Engine reset (R338, R344, R396) -/

/-- A capture in progress ends without an image: the VALID byte at its address is 0, and its OP_COMPLETE is still
queued (R381). -/
def captureEnd (e : Engine) : Engine :=
  match e.cap.h with
  | some h =>
    if e.cap.busy then
      opCompleteNoCtx h (wr (e.cap.addr + 6) [0] { e with cap := { e.cap with busy := false, valid := false, h := none } })
    else e
  | none => e

/-- An engine reset clears all but the retention region (R396); accepted packets are answered ABORTED. Out of OFF, the
reset lasts while VDD_CORE is low (R338). BOR says of the last reset whether it was a brown-out
(DEDUCED, log entry 95). -/
def engineReset (e : Engine) : Engine :=
  let e := match e.cap.asked with
    | some (h, _, _) => reply h 0x0E sABORTED 0 e
    | none => e
  let e := captureEnd e
  let e := (tenants e).foldl (fun e tc => answerRing tc sABORTED e) e
  modPwr (fun p => { p with bor := false, holdBor := p.holdBor || !p.coreOk }) (retained e Engine.fresh)

/-- The four straps present 0, 1, 2 and 3 exactly once each (R16). -/
def strapsOk (straps : U8) : Bool :=
  (List.range 4).all (fun q => (List.range 4).any (fun i => straps.toNat / 4 ^ i % 4 == q))

/-- The known-answer check at reset exit (R189). -/
def katCheck (bad : Option U16) (e : Engine) : Engine :=
  let e := modPwr (fun p => { p with lastKat := bad }) (setRegF rBRW_KAT 1 1 1 e)
  match bad with
  | none => setRegF rBRW_KAT 0 0 1 e
  | some i => fault .brewKat 0 .none hEngine hEngine (i.setWidth 64) e

/-- The ECC error of a bank that fails and has no repair word (R414): which entry and bit of it fail, the syndrome, and
whether ECC corrects it are free (DESIGN CHOICE, log entry 98). -/
def bankFault (b : BankAt) (e : Engine) : Engine :=
  if e.pwr.repair.any (fun x => x.1 == b) then e
  else
    let (v, e) := takeFree e
    let (w, e) := takeFree e
    let n := (tileSram b.at_.tile).2
    let s : Site := .sram b.at_ (BitVec.ofNat 15 (b.bank.toNat * n + v.toNat % n)) (some (w.setWidth 13))
    if !siteExists s then e
    else fault (if w.getLsbD 32 then .eccCorr else .eccQuad) 0 (.quad b.at_.quad) (siteRoot s) (siteReporter s)
      (((w >>> 16).setWidth 16).setWidth 64) e

/-- Reset exit: nothing while anything holds the engine in reset; then the placement check (R16), after which the wake
stages run (R344, R360). -/
def resetExit (straps : Option U8) (kat : Option U16) (e : Engine) : Engine :=
  if inReset e then e
  else if (match straps with
      | some s => !strapsOk s
      | none => false) then
    modPwr (fun p => { p with placementBad := true }) e
  else modPwr (fun p => { p with
    eng := 4, lastKat := kat, waking := [{ quad := none, origin := 6, stages := [0, 1, 2, 3] }] }) e

/-- The wake stages after a reset are over: the retention check (R340), a time base that had stopped restarts (R48), the
known-answer check (R189), and the banks without a repair word (R414) (DEDUCED, log entry 25). -/
def resetDone (e : Engine) : Engine :=
  let e := modPwr (fun p => { p with eng := 2 }) e
  let e := if e.pwr.retlostSticky then retCheck e else tbRestart e
  e.pwr.failing.foldl (fun e b => bankFault b e) (katCheck e.pwr.lastKat e)

/-- VRET is lost: the retention region is invalid, and the repair latches lose their words (R340, R414). -/
def vretLost (e : Engine) : Engine := modPwr (fun p => { p with retlostSticky := true, repair := [] }) e

/-- RST_N. `bad` names the banks that fail, as the memory stage of the exit finds them (R414). -/
def opRstN (high vddaOk : Bool) (straps : U8) (kat : Option U16) (bad : List BankAt) (e : Engine) : Engine :=
  let e := modPwr (fun p => { p with failing := bad }) (if vddaOk then e else vretLost e)
  if !high || !vddaOk then
    let e := engineReset e
    modPwr (fun p => { p with
      holdRstN := true, placementBad := p.placementBad && (high || !strapsOk straps) }) e
  else if e.pwr.holdRstN then resetExit (some straps) kat (modPwr (fun p => { p with holdRstN := false }) e)
  else e

/-- VDD_CORE falls below 0.61 V: a reset outside OFF (R338, R344). -/
def opBrownOut (e : Engine) : Engine :=
  let e := modPwr (fun p => { p with coreOk := false }) e
  if e.pwr.eng = 5 ∧ e.pwr.waking.isEmpty then e
  else modPwr (fun p => { p with holdBor := true, bor := true }) (engineReset e)

def opBrownOutRecovery (straps : U8) (kat : Option U16) (bad : List BankAt) (e : Engine) : Engine :=
  let e := modPwr (fun p => { p with coreOk := true, failing := bad }) e
  if e.pwr.holdBor then resetExit (some straps) kat (modPwr (fun p => { p with holdBor := false }) e) else e

/-- DESIGN CHOICE, log entry 26. -/
def opTestMode (on instrRun : Bool) (e : Engine) : Engine :=
  if on then modPwr (fun p => { p with holdTest := true, testInstr := p.testInstr || instrRun }) (engineReset e)
  else if !e.pwr.holdTest then e
  else
    let lost := instrRun || e.pwr.testInstr
    let e := modPwr (fun p => { p with
      holdTest := false, testInstr := false, retlostSticky := p.retlostSticky || lost }) e
    resetExit none e.pwr.lastKat e

/-- The wrapper takes a repair word only in TEST_MODE (R413, R414); a word replaces the bank's earlier one. -/
def opRepairWord (bank : BankAt) (word : U64) (e : Engine) : Engine :=
  if e.pwr.holdTest then
    modPwr (fun p => { p with
      testInstr := true, repair := p.repair.filter (fun x => x.1 != bank) ++ [(bank, word)] }) e
  else e

/-! ## Steep image (R2, R360) -/

/-- Start a load of `len` 4 KiB units (R360), read through MEM0: outside 1-32 it fails. One under way is begun anew. -/
def steepStart (len : Nat) (mustMatch : Bool) (e : Engine) : Engine :=
  let ok := decide (1 ≤ len ∧ len ≤ 32)
  let n := if ok then 4096 * len else 0
  let old (t : Nat × MemReq) : Nat × MemReq := if t.2.who = .steep then (t.1, { t.2 with who := .none }) else t
  let e := { e with port := { e.port with
    tags := e.port.tags.map old, memWait := e.port.memWait.filter (fun r => r.who != .steep) } }
  let e := modPwr (fun p => { p with
    steep := if ok then 1 else 3, steepLen := len, steepMatch := mustMatch, steepReads := n / 64, steepErr := false }) e
  memRdIssue 0 ((reg e rPWR_STEEP_BASE).toNat / 4096 * 4096) n .steep e

/-- A write to PWR_STEEP_CTRL with LOAD 1, its LEN4K already stored. -/
def steepLoad (e : Engine) : Engine :=
  if unitCode e 4 = 2 then steepStart (regN e rPWR_STEEP_CTRL 5 0) false e else e

/-- The image is read, and judged. -/
def opSteepVerify (e : Engine) : Engine :=
  if e.pwr.steep ≠ 1 ∨ e.pwr.steepReads ≠ 0 then e
  else
    let a := (reg e rPWR_STEEP_BASE).toNat / 4096 * 4096
    let n := 4096 * e.pwr.steepLen
    let img := rd e a n
    let d := Config.steepDigest img
    let ok := !e.pwr.steepErr && Config.steepVerifies img && (!e.pwr.steepMatch || d == e.pwr.digest)
    if ok then
      setUnit none 0 (modPwr (fun p => { p with steep := 2, digest := d, steepMatch := false }) e)
    else modPwr (fun p => { p with steep := 3, steepMatch := false }) e

/-! ## Wake (R357-R359) -/

/-- Stages to run from a state: 0 regulator, 1 PLLs, 2 memory, 3 logic, 4 STOP units (R358). -/
def wakeStages (st : Nat) : List Nat :=
  match st with
  | 1 => [4]
  | 2 => [3]
  | 3 => [1, 3]
  | _ => [0, 1, 2, 3]

def startWake (q : Option Quad) (e : Engine) : Engine :=
  let u := unitOf q
  if unitWaking e u then e
  else modPwr (fun p => { p with
    waking := p.waking ++ [{ quad := q, origin := unitState e u, stages := wakeStages (unitState e u) }] }) e

/-- Deepest state of which a source wakes: 0 PWR_WAKE, 1 control-port request, 2 WAKE_IN, 3 kettle (R357)
(DEDUCED, log entry 81). -/
def wakesFrom (src st : Nat) (coreOk : Bool) : Bool :=
  match src with
  | 0 => st == 1 || st == 2
  | 1 => st == 3
  | 2 => 1 ≤ st && st ≤ 4
  | _ => 1 ≤ st && (st ≤ 4 || (st == 5 && coreOk))

/-- The units a wake event may wake: the engine, and quadrants in a state of their own. -/
def wakeUnits (e : Engine) : List (Option Quad) :=
  none :: (tkeys e.pwr.quads).map (fun q => some (BitVec.ofNat 2 q))

/-- A wake event: during an entry it is noted (R353), in a state it wakes from it starts the wake. -/
def wakeEvent (src : Nat) (e : Engine) : Engine :=
  let ok := e.pwr.coreOk
  let e := modPwr (fun p => { p with
    stopping := p.stopping.map (fun x => if wakesFrom src 1 ok then { x with wakeSeen := true } else x),
    entry := p.entry.map (fun x => if wakesFrom src x.target ok then { x with wakeSeen := true } else x) }) e
  (wakeUnits e).foldl (fun e q =>
    let u := unitOf q
    if unitEntering e u || !wakesFrom src (unitState e u) ok then e else startWake q e) e

/-- Whether a wake event of a source would do anything. -/
def wakePossible (src : Nat) (e : Engine) : Bool :=
  let ok := e.pwr.coreOk
  (e.pwr.stopping.any (fun _ => wakesFrom src 1 ok) || e.pwr.entry.any (fun x => wakesFrom src x.target ok)
    || (wakeUnits e).any (fun q => !unitEntering e (unitOf q) && !unitWaking e (unitOf q)
      && wakesFrom src (unitState e (unitOf q)) ok))

/-- Ring registers and learner version of a context, as its anchor keeps them (R19, R359). -/
def anchorRegs (old : Engine) (tc : Nat) (e : Engine) : Engine :=
  [0x0, 0x8, 0xC, 0x10, 0x18, 0x1C, 0x20, 0x24].foldl (fun e o => setReg (page tc o) (reg old (page tc o)) e) e

def anchorBack (old : Engine) (tc : Nat) (e : Engine) : Engine :=
  let t := ten old tc
  let f := Tenant.fresh tc
  setTen tc { f with
    st := t.st, fclass := t.fclass, qos := t.qos, closeAsked := t.closeAsked, tseed := t.tseed, opencnt := t.opencnt,
    streams := t.streams, learn := { f.learn with lver := t.learn.lver },
    ring := { t.ring with inflight := [], accepted := [], prevE := none } } (anchorRegs old tc e)

/-- State after a wake from DEEP or OFF (R359): as after engine reset, with the retention region
(DEDUCED, log entry 30) (DEDUCED, log entry 31). -/
def deepWake (old : Engine) : Engine :=
  let old := (tenants old).foldl (fun e tc => answerRing tc sABORTED e) old
  let e := retained old Engine.fresh
  let e := { e with time := { e.time with nsps := old.time.nsps, tbRun := old.time.tbRun, afterWake := true } }
  let e := setReg rBRW_KAT (reg old rBRW_KAT) { e with flt := { e.flt with kat := old.flt.kat } }
  let e := modPwr (fun p => { p with owed := old.pwr.owed, held := old.pwr.held }) e
  if old.pwr.retlostSticky then e
  else ((tenants old).filter (fun tc => !old.pwr.anchorLost.contains tc)).foldl (fun e tc => anchorBack old tc e) e

/-- OP_COMPLETE of the POWER_STATE packets a unit's wake completes (R356). -/
def payOwed (u : Nat) (e : Engine) : Engine :=
  let mine := e.pwr.owed.filter (fun x => x.1 == u)
  let e := modPwr (fun p => { p with owed := p.owed.filter (fun x => x.1 != u) }) e
  mine.foldl (fun e x => opCompleteNoCtx x.2 e) e

/-- The unit a scope and a quadrant number name. -/
def scopeUnit (scope quad : Nat) : Nat := if scope = 1 then quad % 4 else 4

def unitQuad (u : Nat) : Option Quad := if u < 4 then some (BitVec.ofNat 2 u) else none

/-- The unit a POWER_STATE with STATE 0 returns to RUN. -/
def runUnit : Cmd → Option Nat
  | .powerState 0 sc q => some (scopeUnit sc.toNat q.toNat)
  | _ => none

/-- Accepted POWER_STATE packets with STATE 0 whose wake from STOP is now complete (R346). -/
def stopWakeReady (u : Nat) (e : Engine) : Engine :=
  (tenants e).foldl (fun e tc => modRing tc (fun r => { r with
    accepted := r.accepted.map (fun a => if runUnit a.cmd = some u then { a with reads := 0 } else a) }) e) e

/-- Whether an accepted POWER_STATE with STATE 0 of a unit is on its way to its effect stride. -/
def runAsked (u : Nat) (e : Engine) : Bool :=
  (tenants e).any (fun tc => (ten e tc).ring.accepted.any (fun a => runUnit a.cmd == some u))

/-- A wake from STOP begins for the POWER_STATE packets of a unit that ask for RUN: their preparation is that wake
(R346). -/
def runWake (u : Nat) (e : Engine) : Engine :=
  let e := (tenants e).foldl (fun e tc => modRing tc (fun r => { r with
    accepted := r.accepted.map (fun a => if runUnit a.cmd = some u then { a with reads := 1 } else a) }) e) e
  startWake (unitQuad u) e

/-- A wake of a unit from STOP is complete: what STOP gates runs again. When a POWER_STATE began it the unit leaves STOP
at that packet's effect stride (R346), else at once (R357). -/
def stopWakeDone (u : Nat) (e : Engine) : Engine :=
  let e := stopWakeReady u e
  if runAsked u e then modPwr (fun p => { p with ungated := u :: p.ungated.filter (· != u) }) e
  else payOwed u (setUnit (unitQuad u) 0 (modPwr (fun p => { p with back := tdel p.back u }) e))

/-! ## Entry (R347, R352-R356) -/

/-- PWR_LAST (R356): OUTCOME 0 entered, 1 refused, 2 aborted. -/
def setLast (target outcome apoint : Nat) (e : Engine) : Engine :=
  setReg rPWR_LAST (BitVec.ofNat 64 (target * 2 ^ 29 + outcome * 2 ^ 27 + apoint * 2 ^ 24)) e

def finishH (h : Option Hdr) (e : Engine) : Engine :=
  match h with
  | some h => opCompleteNoCtx h e
  | none => e

/-- Tiles refuse the oldest entry in its first step (R355). -/
def opQuiesceTimeout (tiles : List TileAt) (e : Engine) : Engine :=
  match e.pwr.entry, (tiles.filter tileActive).map hOf with
  | x :: xs, t :: ts =>
    if x.step ≠ 0 then e
    else
      let low := ts.foldl (fun (m : HAddr) y => if y.toNat < m.toNat then y else m) t
      let e := modPwr (fun p => { p with entry := xs }) e
      finishH x.h (setReg rPWR_REFUSER low (setLast x.target 1 0 (bumpSat rPWR_ENTRY 47 32 1 e)))
  | _, _ => e

/-- The current heat is an empty one (R114). -/
def curEmpty (e : Engine) : Bool :=
  match e.heat.cur with
  | some h => h.plan.isNone
  | none => true

/-- The units that STOP does not keep are gated, once the last heat with rows has issued its records (R347); a packet
accepted meanwhile that asks for RUN begins the wake. -/
def opStopGating (e : Engine) : Engine :=
  match e.pwr.stopping with
  | [] => e
  | x :: xs =>
    if heatBusy e && !curEmpty e then e
    else
      let u := unitOf x.quad
      let e := setUnit x.quad 1 (modPwr (fun p => { p with
        stopping := xs, back := tset p.back u 0, ungated := p.ungated.filter (· != u) }) (if heatBusy e then e else heatFinish e))
      let e := finishH x.h e
      if runAsked u e then runWake u e else if x.wakeSeen then startWake x.quad e else e

/-- The conditions of R348 on which POWER_STATE returns WRONG_STATE. -/
def powerWrong (e : Engine) (state : Nat) (quad : Option Quad) : Bool :=
  let q0 := match quad with
    | some q => q == 0
    | none => false
  let st (u : Nat) : Nat := unitCode e u
  (quad.isSome && (!inHold e || q0))
    || (quad.isNone && state == 0
        && !(st 4 == 1 || e.pwr.stopping.any (fun x => x.quad.isNone)
          || (st 4 == 7 && e.pwr.waking.any (fun x => x.quad.isNone && x.origin == 1))))
    || (state == 1 && decide (1 < st (unitOf quad)))
    || (decide (2 ≤ state) && decide (1 < st 4))
    || (decide (3 ≤ state) && (regB e rHEAT_CTRL 0 || heatBusy e))
    || (decide (4 ≤ state) && (!e.rq.slots.isEmpty || !e.rq.parked.isEmpty || e.learn.owner.isSome
        || (List.range 64).any (fun l => (laneOf e l).st != .free)))

/-- POWER_STATE (R346-R349) (DEDUCED, log entry 84). -/
def opPowerState (h : Hdr) (state scope quad : Nat) (e : Engine) : Res :=
  let q : Option Quad := if scope = 1 then some (BitVec.ofNat 2 quad) else none
  let u := scopeUnit scope quad
  if powerWrong e state q then refuse sWRONG_STATE e
  else if unitCode e u = state then done 0 { e with pwr := { e.pwr with owed := e.pwr.owed ++ [(5, h)] } }
  else
    done 0 (match state with
      | 0 =>
        if u = 4 then
          let ended := e.pwr.stopping.filter (fun x => x.quad.isNone)
          let e := setUnit none 0 (modPwr (fun p => { p with
            stopping := p.stopping.filter (fun x => x.quad.isSome), back := tdel p.back 4, ungated := [],
            waking := p.waking.filter (fun x => x.quad.isSome || x.origin != 1) }) e)
          modPwr (fun p => { p with
            owed := p.owed ++ ended.filterMap (fun x => x.h.map (fun h => (5, h))) ++ [(5, h)] }) e
        else if unitState e u = 1 then
          let e := setUnit q 0 (modPwr (fun p => { p with
            back := tdel p.back u, ungated := p.ungated.filter (· != u),
            waking := p.waking.filter (fun x => unitOf x.quad != u) }) e)
          modPwr (fun p => { p with owed := p.owed ++ [(5, h)] }) e
        else if e.pwr.stopping.any (fun x => unitOf x.quad == u) then
          let ended := e.pwr.stopping.filter (fun x => unitOf x.quad == u)
          modPwr (fun p => { p with
            stopping := p.stopping.filter (fun x => unitOf x.quad != u),
            owed := p.owed ++ ended.filterMap (fun x => x.h.map (fun h => (5, h))) ++ [(5, h)] }) e
        else modPwr (fun p => { p with back := tset p.back u 0, owed := p.owed ++ [(u, h)] }) e
      | 1 => modPwr (fun p => { p with stopping := p.stopping ++ [{ quad := q, h := some h, wakeSeen := false }] }) e
      | st => modPwr (fun p => { p with
          entry := p.entry ++ [{ quad := q, h := some h, target := st, origin := unitState e u, step := 0,
                                 wakeSeen := false }] }) e)

/-- OP_COMPLETE of POWER_STATE packets that are complete with their reply, queued behind it. -/
def payNow (e : Engine) : Engine := payOwed 5 e

/-! ## Supply warning (R341, R342) -/

/-- DEDUCED, log entry 28. -/
def opSupplyWarning (e : Engine) : Engine :=
  if e.pwr.vwarnNow then modPwr (fun p => { p with vwAgain := true }) e
  else
    count 2 15 1 (bumpOpen rPWR_VWARN 63 32 1 (modPwr (fun p => { p with
      vwarn := true, vwarnNow := true, vwStart := e.time.stamp, vwAgain := false }) e))

/-- The episode ends 10 us after the recovery; LONGEST is open when the supply fell more than once. -/
def opSupplyWarningEnd (e : Engine) : Engine :=
  if !e.pwr.vwarnNow then e
  else
    let again := e.pwr.vwAgain
    let span := (e.time.stamp - e.pwr.vwStart).toNat - 10000
    let e := modPwr (fun p => { p with vwarnNow := false, vwAgain := false }) e
    let (t, e) := if again then
        let (v, e) := takeFree e
        (bits v 31 0, e)
      else (min span (2 ^ 32 - 1), e)
    setRegF rPWR_VWARN 31 0 (max (regN e rPWR_VWARN 31 0) t) e

/-! ## The commands of this chapter that need no other -/

/-- The VDD_CORE monitor works outside reset. -/
def execSupplyWarning (s : State) := onAny (fun e => if inReset e then e else opSupplyWarning e) s
def execSupplyWarningEnd (s : State) := onAny (fun e => if inReset e then e else opSupplyWarningEnd e) s
def execBrownOut (s : State) := onAny opBrownOut s
def execBrownOutRecovery (straps : U8) (found : ExitFinds) (s : State) :=
  onAny (opBrownOutRecovery straps found.kat found.bad) s
def execRstN (high vddaOk : Bool) (straps : U8) (found : ExitFinds) (s : State) :=
  onAny (opRstN high vddaOk straps found.kat found.bad) s

/-- VRET or VDD_A has been lost (R340): acted on at the next exit from reset or wake. -/
def execRetlost (s : State) := onAny vretLost s
def execTestMode (on instrRun : Bool) (s : State) := onAny (opTestMode on instrRun) s
def execRepairWordLoad (bank : BankAt) (word : U64) (s : State) := onAny (opRepairWord bank word) s
def execTbclkLockLoss (s : State) := onEng (tbStop true) s

/-- The time-base PLL locks again after a lock loss (R48); a stop for a power state ends with the wake
(DEDUCED, log entry 27). -/
def opTbclkRestart (e : Engine) : Engine := if e.time.lockLost then tbRestart e else e
def execTbclkRestart (s : State) := onEng opTbclkRestart s

/-- WAKE_IN wakes after 100 ns high (R357). -/
def execWakeIn (ns : Nat) (s : State) :=
  onAny (fun e => if 100 ≤ ns ∧ !inReset e then wakeEvent 2 e else e) s
def execStopGating (s : State) := onEng opStopGating s
def execSteepVerifyComplete (s : State) := onEng opSteepVerify s

/-- An idle tile gates its own clock, which changes no result and no register (R351) (DEDUCED, log entry 35). -/
def opTileIdle (_tile : TileAt) (e : Engine) : Engine := e
def execTileIdleTimeout (tile : TileAt) (s : State) := onEng (opTileIdle tile) s

end Sys2Proof.Machine
end

