-- ==== Sys2Proof/Machine/Observe.lean ====
section
/-! DEFINITION. Counters and latches, watch flags, PC samples, trace frames, hang snapshots and photo-finish
capture (16_observability.md). -/

namespace Sys2Proof.Machine

/-! ## Counters (R365) -/

/-- Counters that depend on clocks the model does not count. -/
def isMeasured (g i : Nat) : Bool :=
  (g == 0 && decide (i < 24)) || (g == 1 && decide (i < 16)) || (g == 0x100 && i == 5)

/-- A measured counter: its count goes on from the last reading by what the engine has measured since (DESIGN CHOICE, log
entry 5). -/
def measure (k : Nat) (e : Engine) : U64 × Engine :=
  let e := { addCnt k (Config.measured e.free) e with free := e.free + 1 }
  (tget 0 e.cnt k, e)

/-- Counter `i` of group `g`; of group 0x0100 for tenant `tc`. Indices not listed read zero. -/
def counterVal (g tc i : Nat) (e : Engine) : U64 × Engine :=
  if isMeasured g i then measure (if g = 0x100 then tcntKey tc i else cntKey g i) e
  else if g = 0x100 then (tget 0 e.cnt (tcntKey tc i), e)
  else if g < 4 then (tget 0 e.cnt (cntKey g i), e)
  else (0, e)

/-- The counters of a group from `i` on, `n` of them. -/
def counterVals (g tc : Nat) : Nat → Nat → Engine → List U64 × Engine
  | 0, _, e => ([], e)
  | n + 1, i, e =>
    let (v, e) := counterVal g tc i e
    let (vs, e) := counterVals g tc n (i + 1) e
    (v :: vs, e)

/-! ## Latches (R366-R368) -/

/-- Latch record of 256 bytes (R367). -/
def latchBytes (no : U32) (g edge tc : Nat) (tag : U32) (vs : List U64) (e : Engine) : List Byte :=
  le 4 no.toNat ++ le 2 g ++ le 1 edge ++ le 1 tc ++ le 6 e.time.num.toNat ++ zeros 2 ++ le 4 tag.toNat ++ zeros 4
    ++ le 8 e.time.stamp.toNat ++ zeros 32 ++ vs.flatMap (fun v => le 8 v.toNat)

/-- Where record `no` of the latch ring whose register is at `o` lies. -/
def latchAddr (e : Engine) (o : Nat) (no : U32) : Nat :=
  (reg e o).toNat / 4096 * 4096 + 256 * (no.toNat % 2 ^ regN e o 4 0)

/-- Write a record to the privileged ring, or to the ring of tenant context `ring`. -/
def latchWrite (ring g edge tc : Nat) (tag : U32) (e : Engine) : Engine :=
  let o := if ring = 0 then rDBG_LATCH_BASE else rDBG_TLATCH ring
  let no := if ring = 0 then e.latchNo else (ten e ring).latchNo
  let (vs, e) := counterVals g tc 24 0 e
  let e := wr (latchAddr e o no) (latchBytes no g edge tc tag vs e) e
  if ring = 0 then { e with latchNo := no + 1 } else modTen ring (fun t => { t with latchNo := no + 1 }) e

/-- COUNTER_LATCH (R366). -/
def opCounterLatch (h : Hdr) (group edge : Nat) (e : Engine) : Res :=
  let ring := h.ring.toNat
  let o := if ring = 0 then rDBG_LATCH_BASE else rDBG_TLATCH ring
  let known := if ring = 0 then decide (group < 4) || group == 0x100 else group == 0x100
  if !known || decide ((reg e o).toNat / 4096 = 0) then refuse sNO_SUCH_OBJECT e
  else
    let no := if ring = 0 then e.latchNo else (ten e ring).latchNo
    done no.toNat (latchWrite ring group edge h.target.toNat h.tag e)

/-! ## Counter-window close (R36, R244, R298, R368, R372) -/

/-- Trace records of a group: eight, of three counters each. -/
def counterTrace (g : Nat) (e : Engine) : Engine :=
  let (vs, e) := counterVals g 0 24 0 e
  (List.range 8).foldl (fun e k =>
    tracePush 4 (le 2 g ++ le 1 (3 * k) ++ le 1 3 ++ le 4 (e.time.num.toNat % 2 ^ 32)
      ++ ((vs.drop (3 * k)).take 3).flatMap (fun v => le 8 v.toNat)) e) e

/-- DEDUCED, log entry 36. -/
def windowClose (e : Engine) : Engine :=
  let e := { e with models := e.models.map (fun p => (p.1, { p.2 with useLast := p.2.useNow, useNow := 0 })) }
  let e := adviceNow e
  let e := if regB e rDBG_LATCH_BASE 5 ∧ (reg e rDBG_LATCH_BASE).toNat / 4096 ≠ 0 then
      (List.range 4).foldl (fun e g => latchWrite 0 g 2 0 0 e) e
    else e
  let e := if regB e rDBG_TRACE_CTRL 0 then (List.range 4).foldl (fun e g => counterTrace g e) e else e
  { e with
    ten := e.ten.map (fun p => (p.1, { p.2 with smax := 0 })),
    lanes := { e.lanes with lanes := e.lanes.lanes.map (fun p => (p.1, { p.2 with smax := 0 })) } }

/-! ## Tensor watch (R374) -/

/-- WATCH_SET: the tenant default, or the flags of one request. -/
def opWatchSet (tc flags : Nat) (rid : U32) (e : Engine) : Res :=
  let f : U4 := BitVec.ofNat 4 flags
  if rid = 0xFFFFFFFF#32 then done 0 (modTen tc (fun t => { t with dflt := f }) e)
  else match lookup e tc rid with
    | .none => refuse sNO_SUCH_RID e
    | .slot s r =>
      if terminal r.e.st then refuse sWRONG_STATE e
      else done 0 (modWork s (fun w => { w with watch := f }) e)
    | .parked p =>
      if terminal p.req.e.st then refuse sWRONG_STATE e
      else done 0 (modParked p.entry (fun r => { r with w := { r.w with watch := f } }) e)

/-! ## PC samples (R369) and trace frames (R371-R373) -/

/-- A sample of SQn, which stands in quadrant n / 4 (R17, R369). -/
def opPcSample (sq : U4) (stall : U8) (pc : U16) (qcyc : U32) (waitOn : TileAt) (e : Engine) : Engine :=
  if regB e rDBG_PCS_CTRL 31 ∧ regB e rDBG_PCS_CTRL sq.toNat then
    let on : HAddr := if stall = 0 ∨ stall = 7 then 0 else hOf waitOn
    tracePush 3 ([sq.setWidth 8, stall] ++ le 2 pc.toNat ++ le 4 qcyc.toNat ++ le 6 e.time.num.toNat ++ zeros 2
      ++ le 8 on.toNat ++ le 8 e.time.stamp.toNat) e
  else e

/-- The 256 bytes of a frame of up to seven records (R372), CRC as given. -/
def frameBytes (rs : List (Nat × List Byte)) (e : Engine) (crc : U32) : List Byte :=
  let types := (rs.zip (List.range 7)).foldl (fun t x => t + x.1.1 * 16 ^ x.2) 0
  padTo 256 (le 2 0x7A54 ++ [1] ++ le 1 rs.length ++ le 4 e.trace.fseq.toNat ++ le 4 types ++ le 2 e.time.epoch.toNat
    ++ le 2 (min e.trace.lost 65535) ++ le 8 e.time.stamp.toNat ++ zeros 4 ++ le 4 crc.toNat
    ++ rs.flatMap (fun r => padTo 32 r.2))

/-- One bit of the self-synchronous scrambler of clause 49, polynomial 1 + x^39 + x^58: the scrambled bit enters its
register (R371) (PRESUMED, log entry 104). -/
def scramBit (s : BitVec 58) (b : Bool) : BitVec 58 × Bool :=
  let y := b ^^ s.getLsbD 38 ^^ s.getLsbD 57
  ((s <<< 1) ||| (BitVec.ofNat 58 (b2n y)), y)

/-- Bits of a block's payload, lowest first, through a lane's scrambler. -/
def scramGo (v : U64) : List Nat → BitVec 58 → U64 → BitVec 58 × U64
  | [], s, w => (s, w)
  | i :: is, s, w =>
    let (s, y) := scramBit s (v.getLsbD i)
    scramGo v is s (if y then w ||| (1#64 <<< i) else w)

/-- One block on trace lane `l`: its sync header and its scrambled payload. -/
def laneBlock (l : Nat) (sync : BitVec 2) (v : U64) (e : Engine) : Engine :=
  let x := tget (TLane.mk (BitVec.allOnes 58) []) e.trace.lanes l
  let (s, w) := scramGo v (List.range 64) x.scr 0
  { e with trace := { e.trace with lanes := tset e.trace.lanes l { scr := s, sent := x.sent ++ [(sync, w)] } } }

/-- Sync headers of data blocks and of control blocks (PRESUMED, log entry 104). -/
def syncData : BitVec 2 := 0b10
def syncCtrl : BitVec 2 := 0b01

/-- A frame's 32 data blocks: block `k` on lane `k mod 8`, in block time `k div 8` (R371). -/
def sendFrame (f : List Byte) (e : Engine) : Engine :=
  (List.range 32).foldl (fun e k => laneBlock (k % 8) syncData (BitVec.ofNat 64 (fieldAt f (8 * k) 8)) e) e

/-- A block time without a frame: idle blocks, block type 0x1E, on the eight lanes. -/
def sendIdle (e : Engine) : Engine := (List.range 8).foldl (fun e l => laneBlock l syncCtrl 0x1E e) e

/-- Alignment markers on the eight lanes: block type 0x4B, then the lane number. -/
def sendMarkers (e : Engine) : Engine :=
  (List.range 8).foldl (fun e l =>
    laneBlock l syncCtrl (0x4B#64 ||| BitVec.ofNat 64 (l * 256) ||| (Config.markerBits.setWidth 64 <<< 16)) e) e

/-- Send a frame of the oldest records, when there are any; without one the lanes idle. -/
def opTraceFrame (e : Engine) : Engine :=
  if !regB e rDBG_TRACE_CTRL 31 then e
  else if e.trace.queue.isEmpty then sendIdle e
  else
    let rs := e.trace.queue.take 7
    let f := frameBytes rs e (crc32c (frameBytes rs e 0))
    sendFrame f <| setRegF rDBG_TRACE_STAT 31 0 (regN e rDBG_TRACE_STAT 31 0 + 1) { e with trace := { e.trace with
      queue := e.trace.queue.drop 7, fseq := e.trace.fseq + 1, lost := 0, sent := e.trace.sent ++ [f] } }

/-- An alignment marker on every lane, while the trace port is enabled: a block time of its own, in which no frame starts
(R371, R373) (DEDUCED, log entry 33). -/
def opAlignmentMarker (e : Engine) : Engine :=
  if regB e rDBG_TRACE_CTRL 31 then sendMarkers { e with trace := { e.trace with markers := e.trace.markers + 1 } } else e

/-! ## Hang snapshots (R377) -/

/-- The stride watchdog expires. -/
def opHangWatchdog (e : Engine) : Engine :=
  if regN e rDBG_HANG_CTRL 15 0 ≠ 0 ∧ e.pwr.eng < 2 ∧ e.time.valid then hangAll 1 e else e

/-! ## Photo-finish capture (R379-R382) -/

/-- CAPTURE: it acts at its effect stride in HOLD, else at the next boundary, and then replies (R66)
(DEDUCED, log entry 32). -/
def opCapture (h : Hdr) (addr : U64) (status : Nat) (e : Engine) : Res :=
  if e.cap.busy || e.cap.asked.isSome || !(List.range 4).all (quadUp e) then refuse sWRONG_STATE e
  else done e.time.num.toNat { e with cap := { e.cap with asked := some (h, addr, status), atOnce := inHold e } }

/-- The freeze phase: the packet is answered, each quadrant records its state and sends its markers. -/
def capFreeze (e : Engine) : Engine :=
  match e.cap.asked with
  | none => e
  | some (h, addr, status) =>
    let e := reply h 0x0E status e.time.num.toNat e
    { e with cap := { asked := none, atOnce := false, busy := true, valid := false, cstr := e.time.num,
                      addr := addr.toNat, h := some h, stamp := e.time.stamp, cutStamp := 0, markers := [],
                      held := [] } }

/-- A capture that acts in HOLD, after the command effects of its stride. -/
def capNow (e : Engine) : Engine := if e.cap.atOnce then capFreeze e else e

/-- A freeze marker arrives at a quadrant from its lower- or higher-numbered neighbour. -/
def opFreezeMarker (q : Quad) (higher : Bool) (e : Engine) : Engine :=
  if !e.cap.busy || e.cap.markers.contains (q, higher) then e
  else
    let e := { e with cap := { e.cap with markers := e.cap.markers ++ [(q, higher)] } }
    if e.cap.markers.length = 8 then { e with cap := { e.cap with cutStamp := e.time.stamp } } else e

/-- `n` words of the image that no rule computes (DESIGN CHOICE, log entry 5). -/
def snapWords (base n : Nat) : List Byte :=
  (List.range n).flatMap (fun i => le 8 (Config.snapshotWord (base + i)).toNat)

/-- The link a held flit of a quadrant arrived on: from its lower- (0) or higher-numbered (1) neighbour; the last
hop of the route of R28. -/
def arrivesFrom (src dst : Nat) : Nat :=
  let hop := if (src + 2) % 4 = dst then (src + 1) % 4 else src
  if dst < hop then 1 else 0

/-- A held stitch message: kind, source, destination, and its row and stream. -/
structure Flit where
  kind : Nat
  src : Nat
  dst : Nat
  row : Nat
  pair : Nat

def flitOf (e : Engine) : Instr → Option Flit
  | .partialArrival s r p => some { kind := 1, src := s.toNat, dst := homeQ r.toNat, row := r.toNat, pair := p.toNat }
  | .doneMarker s d => some { kind := 2, src := s.toNat, dst := d.toNat, row := 0, pair := 0 }
  | .renew q => e.lead.pacer.map (fun p => { kind := 3, src := p.toNat, dst := q.toNat, row := 0, pair := 0 })
  | _ => none

/-- Flits that quadrant `q` captured from its neighbour `k`, at most 64 (R30, R382). -/
def capFlits (e : Engine) (q k : Nat) : List Flit :=
  ((e.cap.held.filterMap (flitOf e)).filter (fun x =>
    x.src != x.dst && x.dst == q && arrivesFrom x.src x.dst == k)).take 64

def Flit.bytes (x : Flit) : List Byte :=
  (List.range 32).flatMap (fun w => le 8 (Config.flitWord x.kind x.src x.row x.pair w).toNat)

/-- Memory tags 0-255 of a port, 64 bytes each (R382). -/
def tagBytes (e : Engine) (q : Nat) : List Byte :=
  (List.range 256).flatMap (fun t =>
    let r := tget? e.port.tags (q * 256 + t)
    let wr := match r with
      | some m => m.write
      | none => false
    let a := match r with
      | some m => m.addr
      | none => 0
    (List.range 8).flatMap (fun w => le 8 (Config.tagWord r.isSome wr a w).toNat))

/-- Port and tag of a held drain block. -/
def blockOf : Instr → Option (Quad × U64 × List Byte)
  | .logitsBlock p t d => some (p, t, d)
  | .stepDone p t => some (p, t, [])
  | .stashWord p t d => some (p, t, d)
  | .laneWord p t d => some (p, t, d)
  | .laneReport p t d => some (p, t, d)
  | .amaxWord p t d => some (p, t, d)
  | .digestWord p t d => some (p, t, d)
  | _ => none

/-- Drain blocks that DPq holds: those that wait for its lanes, then those that the freeze holds. -/
def capBlocks (e : Engine) (q : Nat) : List (U64 × List Byte) :=
  (bufOf e q ++ ((e.cap.held.filterMap blockOf).filter (fun x => x.1.toNat == q)).map (fun x => x.2)).take 128

/-- Header of the image (R382). -/
def capHeader (e : Engine) : List Byte :=
  let nflit (q k : Nat) : Nat := (capFlits e q k).length
  let nblk (q : Nat) : Nat := (capBlocks e q).length
  le 4 0x7A504649 ++ [4] ++ le 1 (regN e rCP_IPREV 23 16) ++ [1, 0] ++ le 6 e.cap.cstr.toNat ++ le 2 e.time.epoch.toNat
    ++ le 4 e.heat.lastHeat.toNat ++ le 4 e.lead.epoch.toNat ++ le 8 e.cap.cutStamp.toNat ++ zeros 32
    ++ (List.range 4).flatMap (fun _ => le 8 e.cap.stamp.toNat)
    ++ (List.range 8).flatMap (fun i => le 1 (nflit (i / 2) (i % 2)))
    ++ (List.range 4).flatMap (fun q => le 1 (nblk q))
    ++ (List.range 4).flatMap (fun q => le 2 (mpOf e q).queue.length)

/-- Quadrant section (R382): the link capture buffers, the drain buffer, the manifest queue and the memory tags as the
model holds them. -/
def capSection (e : Engine) (q : Nat) : List Byte :=
  let base := e.free + q * 2000000
  let blks := (capBlocks e q).flatMap (fun x => le 8 x.1.toNat ++ padTo 1024 x.2)
  let flits (k : Nat) : List Byte := padTo 16384 ((capFlits e q k).flatMap Flit.bytes)
  let units := (mpOf e q).queue.flatMap (fun u => padTo 32 u.bytes)
  snapWords base 1318912 ++ flits 0 ++ flits 1
    ++ (blks ++ snapWords (base + 1400000) 16512).take 132096
    ++ (units ++ snapWords (base + 1500000) 16384).take 131072
    ++ tagBytes e q ++ zeros 146432

/-- The image is written and its packet completes (DESIGN CHOICE, log entry 37). -/
def capWrite (e : Engine) : Engine :=
  let e' := wr e.cap.addr (padTo 4096 (capHeader e) ++ (List.range 4).flatMap (capSection e)) e
  let e' := { e' with
    free := e'.free + 8000000,
    cap := { e'.cap with busy := false, valid := true, markers := [], held := [], h := none } }
  match e.cap.h with
  | some h => opCompleteNoCtx h e'
  | none => e'

/-! ## The commands of this chapter that need no other -/

def execPcSample (sq : U4) (stall : U8) (pc : U16) (qcyc : U32) (waitOn : TileAt) (s : State) :=
  onEng (opPcSample sq stall pc qcyc waitOn) s
def execTraceFrame (s : State) := onEng opTraceFrame s
def execAlignmentMarker (s : State) := onEng opAlignmentMarker s
def execHangWatchdog (s : State) := onEng opHangWatchdog s
def execFreezeMarker (q : Quad) (higher : Bool) (s : State) := onEng (opFreezeMarker q higher) s

end Sys2Proof.Machine
end

