-- ==== Sys2Proof/Machine/Faults.lean ====
section
/-! DEFINITION. Slots that become FREE (R81, R225), fault containment, records and interrupts, leadership, and
the quadrant, tenant and lane resets (17_faults_leadership_resets.md). -/

namespace Sys2Proof.Machine

def modFlt (f : FltSt → FltSt) (e : Engine) : Engine := { e with flt := f e.flt }
def modLead (f : LeadSt → LeadSt) (e : Engine) : Engine := { e with lead := f e.lead }

/-! ## Slots and spill records that become FREE (R81, R195, R225) -/

/-- A slot becomes FREE: its KV is released and the request's row stream closes. -/
def freeSlot (slot : Nat) (e : Engine) : Engine :=
  match reqAt e slot with
  | none => e
  | some r =>
    let e := rowStreamClose r.tc r.d.rid (releaseKv slot e)
    { e with rq := { e.rq with slots := tdel e.rq.slots slot } }

/-- A spill record and its RID become free. -/
def freeParked (p : Parked) (e : Engine) : Engine := rowStreamClose p.req.tc p.req.d.rid (unpark p e)

/-- Whether a request's hold is over at stride `at_`: at a boundary, teardown frees it without one. -/
def holdOver (at_ : Stride) (bnd : Bool) (r : Req) : Bool :=
  (bnd && r.w.freeNext) || (terminal r.e.st && (match r.w.holdEnd with
    | some s => reached s at_
    | none => false))

/-- End the terminal holds that are over at stride `at_` (R81). -/
def holdsEnd (at_ : Stride) (bnd : Bool) (e : Engine) : Engine :=
  let e := (e.rq.slots.filter (fun p => holdOver at_ bnd p.2)).foldl (fun e p => freeSlot p.1 e) e
  (e.rq.parked.filter (fun p => holdOver at_ bnd p.req)).foldl (fun e p => freeParked p e) e

/-! ## Leadership (R391-R393) -/

/-- The quadrants whose bits are set. -/
def quads4 (m : U4) : List Nat := (List.range 4).filter (fun q => m.getLsbD q)

def bit4 (q : Nat) : U4 := 1#4 <<< q

/-- A quadrant that may acknowledge: in RUN or STOP, not in reset, not kept out by a fault (R391, R397: FLT_LEAD.QUORUM
counts the quadrants that acknowledged, and a quadrant kept out of the quorum is none of them) (DEDUCED, log entry 19). -/
def eligible (e : Engine) (q : Nat) : Bool :=
  quadUp e q && !e.lead.resetQ.getLsbD q && !e.lead.outOfQuorum.getLsbD q

def hold32 (q : Nat) (ep : U32) (e : Engine) : Engine := modLead (fun l => { l with held := tset l.held q ep }) e

/-- The highest epoch held by the quadrants of a list. -/
def maxHeld (e : Engine) (qs : List Nat) : U32 :=
  qs.foldl (fun m q => if m.toNat < (heldEpoch e q).toNat then heldEpoch e q else m) 0

/-- Report LEADERSHIP for a quadrant that lost its lease or whose proposal failed (R386). -/
def leadFault (q : Nat) (ep : U32) (e : Engine) : Engine :=
  fault .leadership 0 .none (hQuad q) (hQuad q) (ep.setWidth 64) e

def setHold (f : FltSt → FltSt) (e : Engine) : Engine := holdWatch (modFlt f) e

/-- No Pacer leads any more: every quadrant's lease is lost. -/
def loseLead (e : Engine) : Engine :=
  holdWatch (fun e => modLead (fun l => { l with pacer := none, renewing := false, renewWait := [], leaseLost := 0xF }) e) e

/-- The quorum after acknowledgements: QUAD clears when all four are in it; else QUAD_OUT for each missing one, and the
engine is in HOLD with cause QUAD from then on (R385, R393) (DEDUCED, log entry 101). -/
def judgeQuorum (e : Engine) : Engine :=
  let e := modLead (fun l => { l with quorum := l.acks, leaseLost := ~~~l.acks }) e
  if e.lead.acks = 0xF then modFlt (fun f => { f with quad := false }) e
  else match e.lead.pacer with
    | none => e
    | some p => setHold (fun f => { f with quad := true }) ((quads4 (~~~e.lead.acks)).foldl (fun e q =>
        fault .quadOut 0 (.quad (BitVec.ofNat 2 q)) (hQuad q) (hQuad p.toNat) (e.lead.epoch.setWidth 64) e) e)

/-- The Pacer sends RENEW to the other three (R391). A quadrant that gets none regards the lease as lost. -/
def renewStart (e : Engine) : Engine :=
  match e.lead.pacer with
  | none => e
  | some p =>
    let e := modLead (fun l => { l with leaseLost := ~~~bit4 p.toNat }) e
    if !eligible e p.toNat then modLead (fun l => { l with renewing := true, renewWait := [], acks := 0 }) e
    else
      let others := (List.range 4).filter (fun q => q != p.toNat && reach e p.toNat q)
      modLead (fun l => { l with
        renewing := true, renewWait := others.map (BitVec.ofNat 2), acks := bit4 p.toNat }) e

/-- A quadrant in reset that now acknowledges the Pacer completes its RESET_SCOPE (R397). -/
def resetAck (q : Nat) (e : Engine) : Engine :=
  let mine := e.lead.resetRun.filter (fun x => x.1.toNat == q)
  let e := modLead (fun l => { l with resetRun := l.resetRun.filter (fun x => x.1.toNat != q) }) e
  mine.foldl (fun e x => opCompleteNoCtx x.2 e) e

/-- RENEW reaches a quadrant, which acknowledges or not (R391). -/
def opRenew (q : Quad) (e : Engine) : Engine :=
  match e.lead.pacer with
  | none => e
  | some p =>
    if !e.lead.renewWait.contains q then e
    else
      let e := modLead (fun l => { l with
        renewWait := l.renewWait.filter (· != q), leaseLost := l.leaseLost &&& ~~~bit4 q.toNat }) e
      let n := q.toNat
      if eligible e n && decide ((heldEpoch e n).toNat ≤ e.lead.epoch.toNat) then
        let e := modLead (fun l => { l with leaseStr := tset l.leaseStr n e.time.num }) (hold32 n e.lead.epoch e)
        if reach e n p.toNat then resetAck n (modLead (fun l => { l with acks := l.acks ||| bit4 n }) e) else e
      else e

/-- Before the next stride registers, every RENEW under way arrives and the lease is judged: two acknowledgements
keep it (R391) (DESIGN CHOICE, log entry 20). -/
def renewJudge (e : Engine) : Engine :=
  if !e.lead.renewing then e
  else
    let e := (e.lead.renewWait).foldl (fun e q => opRenew q e) e
    let e := modLead (fun l => { l with renewing := false }) e
    match e.lead.pacer with
    | none => e
    | some p =>
      if 3 ≤ (quads4 e.lead.acks).length ∧ e.lead.acks.getLsbD p.toNat then judgeQuorum e
      else
        let ep := e.lead.epoch
        leadFault p.toNat ep (loseLead (modLead (fun l => { l with quorum := l.acks }) e))

/-- The quadrants that propose: each the lowest eligible one that some eligible quadrant without a lease can reach
(R391, R392). -/
def proposers (e : Engine) : List Nat :=
  (List.range 4).filter (fun p => eligible e p && (List.range 4).any (fun c =>
    eligible e c && e.lead.leaseLost.getLsbD c && ((List.range 4).find? (fun q => eligible e q && reach e c q)) == some p))

/-- One proposal (R392, R395). -/
def propose (p : Nat) (e : Engine) : Engine :=
  let ep := maxHeld e ((List.range 4).filter (fun q => reach e p q && quadUp e q && !e.lead.resetQ.getLsbD q)) + 1
  let yes := (List.range 4).filter (fun q =>
    eligible e q && reach e p q && decide ((heldEpoch e q).toNat < ep.toNat))
  let e := yes.foldl (fun e q => hold32 q ep e) e
  let acks := (yes.filter (fun q => reach e q p)).foldl (fun m q => m ||| bit4 q) (0#4)
  let won := acks.getLsbD p && (match e.lead.arbMask with
    | some m => (acks &&& m) == m
    | none => decide (3 ≤ (quads4 acks).length))
  if won then modLead (fun l => { l with
    elected := some (BitVec.ofNat 2 p, ep), acks := acks,
    electCount := satAdd 16 l.electCount 1 }) e
  else leadFault p ep e

/-- Elections at the registration of a stride, while no Pacer leads (R392) (DEDUCED, log entry 18). The mask of an
ARBITRATE holds for one (R395). -/
def election (e : Engine) : Engine :=
  let ps := proposers e
  if e.lead.pacer.isSome || ps.isEmpty then e
  else modLead (fun l => { l with arbMask := none })
    (ps.foldl (fun e p => if e.lead.elected.isSome then e else propose p e) e)

/-- An elected proposer takes office (R392); its quorum is that of its election. -/
def takeOffice (e : Engine) : Engine :=
  match e.lead.elected with
  | none => e
  | some (q, ep) =>
    if !eligible e q.toNat then modLead (fun l => { l with elected := none }) e
    else
      judgeQuorum (modLead (fun l => { l with
        elected := none, pacer := some q, epoch := ep, arbMask := none }) e)

/-! ## Containment (R383) -/

/-- Apply the action of a fault of scope 1, 3, 4 or 5. A request fails in its slot or in the spill area (R79). -/
def contain (c : Contain) (e : Engine) : Engine :=
  match scopeOf c.cls c.tc.toNat false, c.obj with
  | 1, .slot s => failSlot s.toNat e
  | 1, .parked n => endParked n .failed 9 e
  | 3, .lane l => reclaimDrop l.toNat (laneFree l.toNat e)
  | 4, obj =>
    let gone : List Nat := match c.cls, obj, e.lead.pacer with
      | .stitchLink, _, some p => (List.range 4).filter (fun q => !reach e q p.toNat)
      | .stitchLink, _, none => []
      | _, .quad q, _ => [q.toNat]
      | _, _, _ => []
    let m := gone.foldl (fun m q => m ||| bit4 q) (0#4)
    if m = 0 then e
    else
      let kept := c.cls = .eccQuad ∨ c.cls = .sqCheck
      let e := modLead (fun l => { l with
        quorum := l.quorum &&& ~~~m, outOfQuorum := if kept then l.outOfQuorum ||| m else l.outOfQuorum }) e
      setHold (fun f => { f with quad := true }) e
  | 5, _ => match c.cls with
    | .brewKat => setHold (fun f => { f with kat := true }) e
    | .strideRepeat => setHold (fun f => { f with stride := true }) e
    | .leadership => e
    | .placement => e
    | _ => setHold (fun f => { f with fault := true }) e
  | _, _ => e

/-! ## Records and interrupts (R387-R389) -/

/-- The coalescing window of a record closes, FLT_CTRL.WIN microseconds after it opened (R387). -/
def opRecordClose (q : Quad) (index : Nat) (e : Engine) : Engine :=
  let k := q.toNat * 448 + index
  if 448 ≤ index then e
  else match tget? e.flt.recs k with
    | none => e
    | some r => if r.opened && !recLive e r then recClose k r e else e

/-- A class has raised within the last 10 us (R389). -/
def raisedLately (c : FaultClass) (e : Engine) : Bool :=
  e.flt.raised.any (fun r => r.1 == c && decide ((e.time.stamp - r.2).toNat < 10000))

/-- The 10 us of a class end: one raise for those held back. -/
def opIrqRelease (c : FaultClass) (e : Engine) : Engine :=
  if !e.flt.heldRaise.contains c || raisedLately c e then e
  else
    raiseVec (.pv (BitVec.ofNat 5 (regN e rFLT_CTRL 28 24))) (modFlt (fun f => { f with
      heldRaise := f.heldRaise.filter (· != c),
      raised := f.raised.filter (fun r => r.1 != c) ++ [(c, e.time.stamp)] }) e)

/-- The site a report of a class has (R386): SRAM or flop state for an ECC error, the unit the table names for each of
the others. -/
def siteFits (c : FaultClass) (s : Site) : Bool :=
  match c, s with
  | .eccCorr, .sram .. | .eccObject, .sram .. | .eccTenant, .sram .. | .eccQuad, .sram .. | .eccEngine, .sram .. => true
  | .eccCorr, .flop .. | .eccObject, .flop .. | .eccTenant, .flop .. | .eccQuad, .flop .. | .eccEngine, .flop .. => true
  | .drainProtocol, .tile t => t.tile == .dp
  | .drainProtocol, .sram t _ none => tileKind t.tile == 2
  | .versionFenceBreach, .tile t => t.tile == .dp
  | .memError, .tile t | .memTimeout, .tile t => t.tile == .mem
  | .strideRepeat, .tile t | .strideGap, .tile t | .boundaryEarly, .tile t => t.tile == .glb .timeBase
  | .tenantReset, .tile t | .laneReset, .tile t => t.tile == .glb .cp
  | .stitchLink, .tile t => tileKind t.tile == 12
  | .sqCheck, .tile t => tileKind t.tile == 4
  | .leadership, .quad _ | .quadOut, .quad _ => true
  | .brewKat, .engine => true
  | _, _ => false

/-- DETAIL as the class gives it (R386): its bits, zero above. -/
def detailFor (c : FaultClass) (d : U64) : U64 :=
  match c with
  | .eccCorr | .eccObject | .eccTenant | .eccQuad | .eccEngine | .sqCheck => (d.setWidth 16).setWidth 64
  | .strideRepeat | .boundaryEarly => (d.setWidth 48).setWidth 64
  | .leadership | .quadOut | .versionFenceBreach => (d.setWidth 32).setWidth 64
  | .tenantReset | .laneReset => (d.setWidth 8).setWidth 64
  | _ => d

/-- The slot whose row of the current heat has its sampler state at an entry of a lane (R22, R152). -/
def laneSlot (q lane entry : Nat) (e : Engine) : Option Nat :=
  match e.heat.cur with
  | none => none
  | some h => (h.rows.find? (fun r => r.row % 4 == q && r.row / 4 % 16 == lane
      && (rowEntries h.nrows r.row).contains entry)).map (fun r => r.slot)

/-- The object of a report, where its site tells it: the request of a record (R21) or of a row state (R22), the
quadrant of a fault of its state; else the object named. -/
def siteObj (c : FaultClass) (s : Site) (obj : FaultObj) (e : Engine) : FaultObj :=
  match scopeOf c 1 false, s with
  | 4, .sram t _ _ | 4, .flop t _ | 4, .tile t => .quad t.quad
  | 4, .quad q => .quad q
  | 1, .sram ⟨q, .rqt i⟩ n _ => .slot (BitVec.ofNat 16 (q.toNat * 16384 + i.toNat * 4096 + n.toNat))
  | 1, .sram ⟨q, .spr i⟩ n _ => match laneSlot q.toNat i.toNat n.toNat e with
    | some slot => .slot (BitVec.ofNat 16 slot)
    | none => .none
  | _, _ => obj

/-- The packet a microsequencer carried out when its self-check failed is answered INTERNAL (R73, R383); it has no
effect (DEDUCED, log entry 34). -/
def sqDrop (p : Option (U8 × U32)) (e : Engine) : Engine :=
  match p with
  | none => e
  | some (tc, ridx) =>
    match (ten e tc.toNat).ring.accepted.find? (fun a => a.h.ridx == ridx) with
    | none => e
    | some a =>
      let e := modRing tc.toNat (fun r => { r with accepted := r.accepted.filter (fun a => a.h.ridx != ridx) }) e
      let e := match a.cmd with
        | .planLoad .. => planRelease ridx e
        | _ => e
      reply a.h a.cmd.code sINTERNAL 0 e

/-- FAULT_REPORT (R386): the report of a unit that exists (R18), with the root its site gives. -/
def opFaultReport (cls : FaultClass) (tc : U8) (obj : FaultObj) (s : Site) (detail : U64) (packet : Option (U8 × U32))
    (e : Engine) : Engine :=
  if !siteExists s || !siteFits cls s then e
  else
    let rep := match cls, e.lead.pacer with
      | .quadOut, some p => hQuad p.toNat
      | _, _ => siteReporter s
    let e := faultAt cls tc (siteObj cls s obj e) (siteRoot s) rep (detailFor cls detail) e.time.num
      (cls == .strideRepeat && e.time.afterWake) e
    if cls = .sqCheck then sqDrop packet e else e

/-- A link gives up its retries: each of its ends reports (R383, R386); the link state is open
(DEDUCED, log entry 22). -/
def opStitchError (link : Quad) (e : Engine) : Engine :=
  let a := hOf ⟨link, .xl true⟩
  let b := hOf ⟨link + 1, .xl false⟩
  let (v, e) := takeFree e
  let (w, e) := takeFree e
  let e := modLead (fun l => { l with linkUp := l.linkUp &&& ~~~bit4 link.toNat }) e
  fault .stitchLink 0 (.quad link) b b w (fault .stitchLink 0 (.quad link) a a v e)

/-! ## Quadrant reset (R396, R397) -/

/-- Whether the record of a slot can be read: no fault of its state waits for its action (R383, R396)
(DEDUCED, log entry 24). -/
def recReads (e : Engine) (slot : Nat) : Bool :=
  !e.flt.due.any (fun c => c.obj == .slot (BitVec.ofNat 16 slot) && c.cls == .eccObject)

/-- A live request in a slot of the quadrant: parked with cause 1, or FAILED when its record cannot be read or the
spill area is full. -/
def resetSlot (slot : Nat) (e : Engine) : Engine :=
  match reqAt e slot with
  | none => e
  | some r =>
    if terminal r.e.st then freeSlot slot e
    else
      let e := match e.kv.batons.find? (fun b => b.sender && b.slot == slot) with
        | some b => if r.e.st = .handedOff then batonAbort b e else e
        | none => e
      match recReads e slot, spillFree e with
      | true, some entry => parkSlot slot entry 1 e
      | _, _ => modWork slot (fun w => { w with freeNext := true, holdEnd := none }) (failSlot slot e)

/-- Status entries whose writes were outstanding on the memory port of the quadrant count as written. -/
def resetStatus (q tc : Nat) (e : Engine) : Engine :=
  if tc % 4 ≠ q then e
  else
    let n := (ten e tc).ring.inflight.length
    setReg (rCP_SRING_TAIL tc) (BitVec.ofNat 64 ((reg e (rCP_SRING_TAIL tc)).toNat + n) &&& 0xFFFFFFFF)
      (modRing tc (fun r => { r with inflight := [] }) e)

/-- What quadrant `n` holds of the heat computing is gone: its port's step-done, the done markers it holds, its share of
every stream and the rows of its lanes, and the partials at its link ends (R397). -/
def resetHeat (n : Nat) (e : Engine) : Engine :=
  { e with heat := { e.heat with
    flights := e.heat.flights.filter (fun f => f.src.toNat != n && f.hops.all (fun x => x.1 != n && x.2 != n)),
    cur := e.heat.cur.map (fun h => { h with
      done := h.done &&& ~~~bit4 n, wvers := h.wvers.filter (fun w => w.1.toNat != n),
      markers := h.markers.filter (fun m => m.2.toNat != n), prevBlk := tdel h.prevBlk n,
      streams := h.streams.map (fun s =>
        (if homeQ s.row = n then { s with merged := Part.empty } else s).put n QStream.empty) }) } }

/-- The quadrant's ports are as after its reset (R397): drain credits, waiting blocks, status words, memory requests,
manifest queue. -/
def resetPorts (q : Quad) (e : Engine) : Engine :=
  let n := q.toNat
  let e := { e with port := { e.port with
    crd := tdel e.port.crd n, buf := tdel e.port.buf n, drr := tdel e.port.drr n,
    words := e.port.words.filter (fun w => w.1 != q), tags := e.port.tags.filter (fun t => t.1 / 256 != n),
    memWait := e.port.memWait.filter (fun m => m.port != q) } }
  setMp n { MpPort.fresh with sent := (mpOf e n).sent } e

/-- The quadrant's share of the plan store and its PF0 are lost, until its reload (R25, R397), and what it kept of the
replicated content is to be copied again (R20). -/
def resetShare (n : Nat) (e : Engine) : Engine :=
  modLead (fun l => { l with replOk := l.replOk &&& ~~~bit4 n, reload := l.reload.filter (fun x => x.quad.toNat != n) })
    { e with plans := { e.plans with
      store := e.plans.store.filter (fun p => p.1 / 1024 != n), pf := e.plans.pf &&& ~~~bit4 n } }

/-- The quadrant reads again the plan and policy images last loaded successfully (R397), while it has power. -/
def reloadStart (q : Quad) (e : Engine) : Engine :=
  if !quadUp e q.toNat then e
  else
    let n := (e.images.map (fun x => lineCount x.2.1 x.2.2.1)).sum
    let e := modLead (fun l => { l with
      reload := l.reload.filter (fun x => x.quad != q) ++ [{ quad := q, reads := n, err := false }] }) e
    e.images.foldl (fun e x => memRdIssue q.toNat x.2.1 x.2.2.1 (.reload q) e) e

/-- What a reset of quadrant `q` clears (R396, R397): everything outside its retention region, and TBLGEN of its slots
(R213) (DEDUCED, log entry 24). -/
def quadReset (q : Quad) (e : Engine) : Engine :=
  let n := q.toNat
  let e := captureEnd e
  let mine := sortBy (parkBefore e) (e.rq.slots.filter (fun s => s.1 / 16384 == n))
  let e := mine.foldl (fun e s => resetSlot s.1 e) e
  let e := { e with rq := { e.rq with tblgen := e.rq.tblgen.filter (fun s => s.1 / 16384 != n) } }
  let e := ((tenants e).filter (fun tc => tc % 4 == n)).foldl (fun e tc => answerRing tc sABORTED e) e
  let e := (tenants e).foldl (fun e tc => resetStatus n tc e) e
  let e := resetShare n (resetPorts q (resetHeat n e))
  let e := if e.lead.pacer = some q then loseLead e else e
  let e := modLead (fun l => { l with
    resetQ := l.resetQ ||| bit4 n, outOfQuorum := l.outOfQuorum &&& ~~~bit4 n, quorum := l.quorum &&& ~~~bit4 n,
    acks := l.acks &&& ~~~bit4 n, renewWait := l.renewWait.filter (· != q),
    elected := l.elected.filter (fun x => x.1 != q) }) e
  reloadStart q (setHold (fun f => { f with quad := true }) (scaleLoss e))

/-- Whether an image that was loaded still is a good one. -/
def imageGood (e : Engine) (x : Nat × Nat × Nat × Nat) : Bool :=
  let img := rd e x.2.1 x.2.2.1
  if x.1 = 256 then policyCheck img x.2.2.1 == 0 else planCheck img x.1 x.2.2.2 == 0

/-- Write the share of quadrant `n` from the images: the entries of each model, in image order (R102, R397). -/
def shareFill (n : Nat) (e : Engine) : Engine :=
  e.models.foldl (fun e m => match tget? e.images m.1 with
    | none => e
    | some (addr, bytes, cnt) =>
      let xs := (m.2.plans.zip (imagePlans (rd e addr bytes) cnt)).filter (fun x => (planHome x.1).1 == n)
      { e with plans := { e.plans with store := storePut xs e.plans.store } }) e

/-- Whether quadrant `n` is one of the current quorum from which another may copy the replicated content (R20). -/
def replSource (e : Engine) (n : Nat) : Bool :=
  (e.lead.quorum &&& e.lead.replOk &&& ~~~e.lead.resetQ).getLsbD n

/-- The quadrant has reloaded and may acknowledge again, or its reload failed (R20, R25, R397): once its reads are answered
and `src`, from which it copies the replicated content, is a quadrant of the quorum that has it (DEDUCED, log entry 23). -/
def opRejoin (q src : Quad) (e : Engine) : Engine :=
  let n := q.toNat
  match e.lead.reload.find? (fun x => x.quad == q) with
  | none => e
  | some x =>
    if !e.lead.resetQ.getLsbD n || x.reads != 0 || !replSource e src.toNat then e
    else
      let ok := !x.err && e.images.all (imageGood e)
      let e := modLead (fun l => { l with
        resetQ := l.resetQ &&& ~~~bit4 n, linkUp := l.linkUp ||| bit4 n ||| bit4 ((n + 3) % 4),
        replOk := l.replOk ||| bit4 n, reload := l.reload.filter (fun x => x.quad != q) }) e
      if ok then
        let e := shareFill n e
        { e with plans := { e.plans with pf := e.plans.pf ||| bit4 n } }
      else
        let e := modLead (fun l => { l with outOfQuorum := l.outOfQuorum ||| bit4 n }) e
        let (v, e) := takeFree e
        let (w, e) := takeFree e
        let s : Site := .sram ⟨q, .hpt⟩ (BitVec.ofNat 15 (v.toNat % 1024)) (some (w.setWidth 13))
        fault .eccQuad 0 (.quad q) (siteRoot s) (siteReporter s) (((w >>> 16).setWidth 16).setWidth 64) e

/-- RESET_SCOPE 1 (R396, R397). -/
def opResetQuadrant (h : Hdr) (index : Nat) (e : Engine) : Res :=
  if !inHold e || index == 0 || e.lead.resetQ != 0 then refuse sWRONG_STATE e
  else
    let q : Quad := BitVec.ofNat 2 index
    done 0 (modLead (fun l => { l with resetRun := l.resetRun ++ [(q, h)] }) (quadReset q e))

/-! ## Tenant and lane resets (R396, R398, R399) -/

/-- The unit that reports a reset of software (R386). -/
def hReset : HAddr := hOf ⟨0, .glb .cp⟩

/-- RESET_SCOPE 2: an open context is torn down at the next stride; a torn one gives up the lanes it waits for
(DEDUCED, log entry 38). -/
def opResetTenant (h : Hdr) (index : Nat) (e : Engine) : Res :=
  if index = 0 ∨ (ten e index).st = .free then refuse sWRONG_STATE e
  else
    let torn := (ten e index).st = .torn
    let e := fault .tenantReset (BitVec.ofNat 8 index) (.tenant (BitVec.ofNat 8 index)) hReset hReset
      (BitVec.ofNat 64 index) e
    if torn then
      let e := (lanesOf e index [.releasing]).foldl (fun e l => laneFree l e) e
      done 0 { e with pwr := { e.pwr with owed := e.pwr.owed ++ [(5, h)] } }
    else done 0 (modFlt (fun f => { f with resets := f.resets ++ [(index, h)] }) e)

/-- RESET_SCOPE 3 (R399) (DEDUCED, log entry 39). -/
def opResetLane (h : Hdr) (index : Nat) (e : Engine) : Res :=
  let l := BitVec.ofNat 6 index
  if (laneOf e index).st = .free then refuse sWRONG_STATE e
  else
    let e := faultAt .laneReset 0 .none hReset hReset (BitVec.ofNat 64 index) e.time.num false e
    let e := modFlt (fun f => { f with due := f.due.erase { cls := .laneReset, tc := 0, obj := .none } }) e
    let e := reclaimDrop l.toNat (laneFree l.toNat e)
    done 0 { e with pwr := { e.pwr with owed := e.pwr.owed ++ [(5, h)] } }

/-- A registered teardown takes effect (R287): its stride is a break; a tenant reset answers ABORTED (R398). -/
def teardownNow (tc : U8) (cls : FaultClass) (e : Engine) : Engine :=
  let n := tc.toNat
  let open_ := isOpen e n && n != 0
  let e := if open_ then
      let e := replayRec 8 (faultCode cls) n 0 (markBreak 4 e)
      tearDown n (faultCode cls) (if cls = .tenantReset then sABORTED else sTORN) e
    else e
  let mine := if cls = .tenantReset then e.flt.resets.filter (fun x => x.1 == n) else []
  let e := if cls = .tenantReset then modFlt (fun f => { f with resets := f.resets.filter (fun x => x.1 != n) }) e else e
  mine.foldl (fun e x => opCompleteNoCtx x.2 e) e

/-- TENANT_TEARDOWN: a teardown registered at an earlier stride takes effect; one that nothing has registered is registered
for the stride after this one (R41, R287, R383). -/
def opTeardown (tc : U8) (cls : FaultClass) (e : Engine) : Engine :=
  match e.sched.ext.find? (fun x => x.2 == .teardown tc cls) with
  | none => addExt (.teardown tc cls) e
  | some x =>
    if x.1 = e.time.num then e
    else teardownNow tc cls { e with sched := { e.sched with ext := e.sched.ext.erase x } }

/-- FAULT_CONTAINMENT: the action of one registered fault, or of one named by the command. -/
def opContain (cls : FaultClass) (tc : U8) (obj : FaultObj) (e : Engine) : Engine :=
  let c : Contain := { cls := cls, tc := tc, obj := obj }
  if scopeOf cls tc.toNat false = 2 then opTeardown tc cls e
  else contain c (modFlt (fun f => { f with due := f.due.erase c }) e)

/-! ## HOLD and root registers (R385, R390) -/

/-- A write to FLT_HOLD: STRIDE and FAULT clear on 1. -/
def opHoldClear (v : Nat) (e : Engine) : Engine :=
  modFlt (fun f => { f with stride := f.stride && !nbit v 4, fault := f.fault && !nbit v 3 }) e

/-! ## The commands of this chapter that need no other -/

/-- RENEW is a stitch message: it waits out a capture's freeze (R28, R380). -/
def execRenew (q : Quad) (s : State) := onEng (capGate (.renew q) (opRenew q)) s
def execFaultReport (cls : FaultClass) (tc : U8) (obj : FaultObj) (root : Site) (detail : U64)
    (packet : Option (U8 × U32)) (s : State) := onEng (opFaultReport cls tc obj root detail packet) s
def execFaultContainment (cls : FaultClass) (tc : U8) (obj : FaultObj) (s : State) := onEng (strideWork (opContain cls tc obj)) s
def execTenantTeardown (tc : U8) (cls : FaultClass) (s : State) := onEng (strideWork (opTeardown tc cls)) s
def execFaultRecordClose (q : Quad) (index : Nat) (s : State) := onEng (opRecordClose q index) s
def execFaultInterruptRelease (cls : FaultClass) (s : State) := onEng (opIrqRelease cls) s
def execStitchLinkError (link : Quad) (s : State) := onEng (opStitchError link) s
def execQuadrantRejoin (q src : Quad) (s : State) := onEng (opRejoin q src) s

end Sys2Proof.Machine
end

