-- ==== Sys2Proof/Machine/Entry.lean ====
section
/-! DEFINITION. The ends of wakes and the steps of entries (15_power_supplies_bringup.md R340, R344, R346,
R352-R354, R356, R358-R360). -/

namespace Sys2Proof.Machine

/-! ## Wake (R358-R360) -/

/-- A quadrant is back from a state of its own: its state is intact, but after DEEP and OFF, where it had only its
retention region and now reloads as after a quadrant reset (R345, R359). -/
def quadWake (q : Quad) (back : Nat) (e : Engine) : Engine :=
  let e := setUnit (some q) back e
  if e.lead.resetQ.getLsbD q.toNat then reloadStart q e else e

/-- A wake of the engine from SLEEP, DEEP or OFF is complete (R359): the retention check (R340) or a new stamp epoch
(R48), and after DEEP and OFF the reload of the Steep image. -/
def deepWakeDone (origin back : Nat) (e : Engine) : Engine :=
  let e := if origin = 3 then { e with time := { e.time with afterWake := true } } else deepWake e
  let e := setUnit none (if origin = 3 then back else 2) e
  let e := if e.pwr.retlostSticky then retCheck e else tbRestart e
  if origin = 3 then e else steepStart e.pwr.steepLen true e

/-- A wake is complete: the unit is back in the state from which entry began, a Steep load under way or failed
notwithstanding (R359) (DEDUCED, log entry 83) (DESIGN CHOICE, log entry 100). -/
def wakeDone (w : Waking) (e : Engine) : Engine :=
  let u := unitOf w.quad
  let back := (tget? e.pwr.back u).getD w.origin
  if w.origin = 6 then resetDone e
  else if w.origin = 1 then stopWakeDone u (if u = 4 then retCheck e else e)
  else
    let e := modPwr (fun p => { p with back := tdel p.back u }) e
    match w.quad with
    | some q => payOwed u (quadWake q back e)
    | none =>
      if w.origin < 3 then payOwed u (retCheck (setUnit none back e)) else payOwed u (deepWakeDone w.origin back e)

/-- The running stage of the oldest wake is ready (R358); the logic stage waits out a warning episode. -/
def opWakeStage (e : Engine) : Engine :=
  match e.pwr.waking with
  | [] => e
  | w :: ws =>
    match w.stages with
    | [] => e
    | st :: rest =>
      if st = 3 ∧ e.pwr.vwarnNow then e
      else if rest.isEmpty then wakeDone w (modPwr (fun p => { p with waking := ws }) e)
      else modPwr (fun p => { p with waking := { w with stages := rest } :: ws }) e

/-! ## Entry (R352-R354, R356) -/

/-- The entered state is reached; a wake event after A4 starts the wake at once (R354). A quadrant in DEEP or OFF keeps
its retention region only (R345). -/
def entered (x : Entry) (e : Engine) : Engine :=
  let u := unitOf x.quad
  let e := setLast x.target 0 0 (bumpSat rPWR_ENTRY 63 48 1 e)
  let e := setUnit x.quad x.target (modPwr (fun p => { p with
    back := tset p.back u x.origin,
    owed := match x.h with
      | some h => p.owed ++ [(u, h)]
      | none => p.owed }) e)
  let e := if 4 ≤ x.target then
      match x.quad with
      | some q => quadReset q e
      | none => scaleLoss e
    else e
  if x.wakeSeen then startWake x.quad e else e

/-- The entry is abandoned at abort point `k` and its steps undone (R353). -/
def entryAbort (x : Entry) (k : Nat) (e : Engine) : Engine :=
  let e := setLast x.target 2 k (bumpSat rPWR_ENTRY 31 16 1 e)
  let e := if 3 ≤ k ∧ unitOf x.quad = 4 then tbRestart e else e
  finishH x.h e

/-- Steps an entry to a state has (R352). -/
def entrySteps (target : Nat) : Nat := if target = 2 then 1 else if target = 3 then 4 else 5

/-- The effect of completing step `k` (R352). What DEEP and OFF would lose of the stride's records is written first. -/
def entryEffect (x : Entry) (k : Nat) (e : Engine) : Engine :=
  if unitOf x.quad ≠ 4 then e
  else if k = 2 then
    departAll { (if 4 ≤ x.target then sayBreak e else e) with time := { e.time with retStride := e.time.num } }
  else if k = 3 then tbStop false e
  else e

/-- The oldest entry completes a step and goes on, ends or is abandoned at the abort point behind it
(DESIGN CHOICE, log entry 82). -/
def opEntryStep (e : Engine) : Engine :=
  match e.pwr.entry with
  | [] => e
  | x :: xs =>
    let k := x.step + 1
    let e := entryEffect x k e
    if x.wakeSeen ∧ k ≤ 4 then entryAbort x k (modPwr (fun p => { p with entry := xs }) e)
    else if k = entrySteps x.target then entered x (modPwr (fun p => { p with entry := xs }) e)
    else modPwr (fun p => { p with entry := { x with step := k } :: xs }) e

end Sys2Proof.Machine
end

