-- ==== Sys2Proof/Machine/Opcodes.lean ====
section
/-! DEFINITION. Packets taking effect (03_command_packets.md R63, R64, R66, R67, R420): one shared operation over
the opcodes of R64, and the opcode rows of the command table. -/

namespace Sys2Proof.Machine

/-- SET_STRIDE_RATE (R38): a value below 0x0010_0000 is out of range. -/
def opSetStrideRate (nsps : U32) (e : Engine) : Res :=
  if nsps.toNat < 0x00100000 then refuse sBAD_PARAM e else done 0 { e with time := { e.time with nsps := nsps } }

/-- RESET_SCOPE (R396). -/
def opResetScope (h : Hdr) (scope index : Nat) (e : Engine) : Res :=
  match scope with
  | 1 => opResetQuadrant h index e
  | 2 => opResetTenant h index e
  | _ => opResetLane h index e

/-- The effect of an opcode on its objects. `ord` is the place of the packet in R42. -/
def effect (ord : List Nat) (h : Hdr) (cmd : Cmd) (late err : Bool) (e : Engine) : Res :=
  let tc := h.target.toNat
  match cmd with
  | .nop => done 0 e
  | .setStrideRate n => opSetStrideRate n e
  | .policyLoad a n => opPolicyLoad a.toNat n.toNat err e
  | .planLoad a m n => opPlanLoad h.ridx a.toNat m.toNat n.toNat err e
  | .tenantOpen a => opTenantOpen tc a.toNat err e
  | .tenantClose m => opTenantClose tc m.toNat e
  | .tenantQos a => opTenantQos tc a.toNat err e
  | .laneGrant m => opLaneGrant tc m e
  | .laneReclaim m b => opLaneReclaim h tc m b.toNat err e
  | .contextSave a n => opContextSave tc a.toNat n.toNat e
  | .contextRestore a n => opContextRestore ord tc a.toNat n.toNat err e
  | .resetScope s i => opResetScope h s.toNat i.toNat e
  | .powerState st sc q => opPowerState h st.toNat sc.toNat q.toNat e
  | .capture a => opCapture h a (if late then sOK_LATE else 0) e
  | .admitReq r d => opAdmit ord tc r d.toNat err e
  | .pause r t x => opPause tc r t.toNat x.toNat e
  | .resume r => opResume ord tc r e
  | .cancel r => opCancel tc r e
  | .setBudget r m b => opSetBudget tc r m.toNat b.toNat e
  | .handoff r p => opHandoff tc r p e
  | .regionPublish a n k hd => opRegionPublish tc a.toNat n.toNat k.toNat hd err e
  | .modelRegister a m => opModelRegister a.toNat m.toNat err e
  | .modelEvict m => opModelEvict m.toNat e
  | .adapterRegister a m ad v r => opAdapterRegister tc a.toNat m.toNat ad.toNat v.toNat r.toNat e
  | .adapterRetire m ad v f => opAdapterRetire tc m.toNat ad.toNat v.toNat f.toNat e
  | .expertSet a m x => opExpertSet tc a.toNat m.toNat x.toNat e
  | .turnToLearn m => opTurnToLearn h tc m.toNat e
  | .turnToGenerate v => opTurnToGenerate ord tc v e
  | .learnConfig t w x => opLearnConfig tc t.toNat w.toNat x.toNat e
  | .optStepDone v => opOptStepDone tc v e
  | .stalenessCap c => opStalenessCap tc c.toNat e
  | .seedSet k => opSeedSet tc k e
  | .streamOpen c r => opStreamOpen tc c.toNat r e
  | .streamClose n => opStreamClose tc n.toNat e
  | .counterLatch g x => opCounterLatch h g.toNat x.toNat e
  | .watchSet f r => opWatchSet tc f.toNat r e

/-- Opcodes that act on no tenant context, or on one in every state (R420). -/
def freeOfContext : Cmd → Bool
  | .nop | .setStrideRate .. | .policyLoad .. | .planLoad .. | .modelRegister .. | .modelEvict .. | .resetScope ..
  | .powerState .. | .capture .. | .tenantOpen .. | .tenantClose .. => true
  | _ => false

/-- Opcodes that write replicated contents of their TARGET: its anchor and its registry entries (R20). -/
def writesAnchor : Cmd → Bool
  | .tenantOpen .. | .tenantQos .. | .seedSet .. | .streamOpen .. | .streamClose .. | .contextRestore .. => true
  | _ => false

/-- A context whose anchor went with an invalid retention region has one again (R20, R340)
(DEDUCED, log entry 108). -/
def reanchor (tc : Nat) (e : Engine) : Engine :=
  modPwr (fun p => { p with anchorLost := p.anchorLost.filter (· != tc) }) e

/-- An effect, with what it replicates. -/
def kept (cmd : Cmd) (tc : Nat) (r : Res) : Res :=
  if writesAnchor cmd && decide (r.status < 0x10) then { r with eng := reanchor tc r.eng } else r

/-- The check of R420, then the effect. -/
def checkedEffect (ord : List Nat) (h : Hdr) (cmd : Cmd) (late err : Bool) (e : Engine) : Res :=
  let go : Res := kept cmd h.target.toNat (effect ord h cmd late err e)
  if freeOfContext cmd then go
  else match (ten e h.target.toNat).st with
    | .free => refuse sWRONG_STATE e
    | .torn => refuse sTORN e
    | _ => go

/-- CAPTURE replies when its action starts (R66). -/
def repliesLater (cmd : Cmd) (status : Nat) : Bool :=
  match cmd with
  | .capture .. => status == 0
  | _ => false

/-- A packet takes effect: check, effect, reply, and the completions that follow the reply at once. A late packet whose
effect has an OK status of its own keeps it (DESIGN CHOICE, log entry 113). -/
def applyCmd (ord : List Nat) (h : Hdr) (cmd : Cmd) (late err : Bool) (e : Engine) : Engine :=
  let r := checkedEffect ord h cmd late err e
  let st := if late && r.status == 0 then sOK_LATE else r.status
  let e := if repliesLater cmd r.status then r.eng else reply h cmd.code st r.result r.eng
  reclaimSweep (payNow e)

/-- What follows a packet's reply at once: completions owed with it (R356), reclaims that wait for no lane (R300),
and a capture asked for in HOLD (R379). -/
def settled (e : Engine) : Engine := capNow (reclaimSweep (payNow e))

/-- An opcode row: the packet takes effect at the current stride, its preparation complete (DESIGN CHOICE, log entry 4). -/
def applyNow (h : Hdr) (cmd : Cmd) (e : Engine) : Engine :=
  let r := checkedEffect [h.ring.toNat, h.ridx.toNat] h cmd false false e
  settled (if repliesLater cmd r.status then r.eng else reply h cmd.code r.status r.result r.eng)

/-! ## The rows. While a capture has frozen the engine they wait (R380). -/

def row (i : Instr) (h : Hdr) (cmd : Cmd) (s : State) : Host.Outcome State Fault Refusal :=
  onEng (capGate i (applyNow h cmd)) s

def execNop (h : Hdr) (s : State) := row (.nop h) h .nop s
def execSetStrideRate (h : Hdr) (nsps : U32) (s : State) := row (.setStrideRate h nsps) h (.setStrideRate nsps) s
def execPolicyLoad (h : Hdr) (addr : U64) (bytes : U32) (s : State) :=
  row (.policyLoad h addr bytes) h (.policyLoad addr bytes) s
def execPlanLoad (h : Hdr) (addr : U64) (model : U8) (count : U16) (s : State) :=
  row (.planLoad h addr model count) h (.planLoad addr model count) s
def execTenantOpen (h : Hdr) (qos : U64) (s : State) := row (.tenantOpen h qos) h (.tenantOpen qos) s
def execTenantClose (h : Hdr) (mode : U8) (s : State) := row (.tenantClose h mode) h (.tenantClose mode) s
def execTenantQos (h : Hdr) (qos : U64) (s : State) := row (.tenantQos h qos) h (.tenantQos qos) s
def execLaneGrant (h : Hdr) (mask : U64) (s : State) := row (.laneGrant h mask) h (.laneGrant mask) s
def execLaneReclaim (h : Hdr) (mask : U64) (budget : U32) (s : State) :=
  row (.laneReclaim h mask budget) h (.laneReclaim mask budget) s
def execContextSave (h : Hdr) (addr : U64) (bytes : U32) (s : State) :=
  row (.contextSave h addr bytes) h (.contextSave addr bytes) s
def execContextRestore (h : Hdr) (addr : U64) (bytes : U32) (s : State) :=
  row (.contextRestore h addr bytes) h (.contextRestore addr bytes) s
def execResetScopeQuadrant (h : Hdr) (index : U8) (s : State) :=
  row (.resetScopeQuadrant h index) h (.resetScope 1 index) s
def execResetScopeTenant (h : Hdr) (index : U8) (s : State) :=
  row (.resetScopeTenant h index) h (.resetScope 2 index) s
def execResetScopeLane (h : Hdr) (index : U8) (s : State) :=
  row (.resetScopeLane h index) h (.resetScope 3 index) s
def execPowerStateRun (h : Hdr) (scope quad : U8) (s : State) :=
  row (.powerStateRun h scope quad) h (.powerState 0 scope quad) s
def execPowerStateStop (h : Hdr) (scope quad : U8) (s : State) :=
  row (.powerStateStop h scope quad) h (.powerState 1 scope quad) s
def execPowerStateEntry (h : Hdr) (state scope quad : U8) (s : State) :=
  row (.powerStateEntry h state scope quad) h (.powerState state scope quad) s
def execCapture (h : Hdr) (addr : U64) (s : State) := row (.capture h addr) h (.capture addr) s
def execAdmitReq (h : Hdr) (rid : U32) (desc : U64) (s : State) := row (.admitReq h rid desc) h (.admitReq rid desc) s
def execPause (h : Hdr) (rid ttl : U32) (tier : U8) (s : State) :=
  row (.pause h rid ttl tier) h (.pause rid ttl tier) s
def execResume (h : Hdr) (rid : U32) (s : State) := row (.resume h rid) h (.resume rid) s
def execCancel (h : Hdr) (rid : U32) (s : State) := row (.cancel h rid) h (.cancel rid) s
def execSetBudget (h : Hdr) (rid maxTokens : U32) (budgetNs : U64) (s : State) :=
  row (.setBudget h rid maxTokens budgetNs) h (.setBudget rid maxTokens budgetNs) s
def execHandoff (h : Hdr) (rid peer : U32) (s : State) := row (.handoff h rid peer) h (.handoff rid peer) s
def execRegionPublish (h : Hdr) (addr : U64) (bytes : U32) (kind : U8) (handle : U32) (s : State) :=
  row (.regionPublish h addr bytes kind handle) h (.regionPublish addr bytes kind handle) s
def execModelRegister (h : Hdr) (desc : U64) (model : U8) (s : State) :=
  row (.modelRegister h desc model) h (.modelRegister desc model) s
def execModelEvict (h : Hdr) (model : U8) (s : State) := row (.modelEvict h model) h (.modelEvict model) s
def execAdapterRegister (h : Hdr) (table : U64) (model : U8) (adapter version rank : U16) (s : State) :=
  row (.adapterRegister h table model adapter version rank) h (.adapterRegister table model adapter version rank) s
def execAdapterRetire (h : Hdr) (model : U8) (adapter version : U16) (force : U8) (s : State) :=
  row (.adapterRetire h model adapter version force) h (.adapterRetire model adapter version force) s
def execExpertSet (h : Hdr) (mask : U64) (model : U8) (set : U16) (s : State) :=
  row (.expertSet h mask model set) h (.expertSet mask model set) s
def execTurnToLearn (h : Hdr) (mode : U8) (s : State) := row (.turnToLearn h mode) h (.turnToLearn mode) s
def execTurnToGenerate (h : Hdr) (pver : U16) (s : State) := row (.turnToGenerate h pver) h (.turnToGenerate pver) s
def execLearnConfig (h : Hdr) (tokens : U32) (window : U16) (stash : U64) (s : State) :=
  row (.learnConfig h tokens window stash) h (.learnConfig tokens window stash) s
def execOptStepDone (h : Hdr) (pver : U16) (s : State) := row (.optStepDone h pver) h (.optStepDone pver) s
def execStalenessCap (h : Hdr) (cap : U16) (s : State) := row (.stalenessCap h cap) h (.stalenessCap cap) s
def execSeedSet (h : Hdr) (key : U128) (s : State) := row (.seedSet h key) h (.seedSet key) s
def execStreamOpen (h : Hdr) (cls : U8) (rid : U32) (s : State) := row (.streamOpen h cls rid) h (.streamOpen cls rid) s
def execStreamClose (h : Hdr) (stream : U32) (s : State) := row (.streamClose h stream) h (.streamClose stream) s
def execCounterLatch (h : Hdr) (group : U16) (edge : U8) (s : State) :=
  row (.counterLatch h group edge) h (.counterLatch group edge) s
def execWatchSet (h : Hdr) (flags rid : U32) (s : State) := row (.watchSet h flags rid) h (.watchSet flags rid) s

end Sys2Proof.Machine
end

