-- ==== Sys2Proof/Machine/Stride.lean ====
section
/-! DEFINITION. Stride events and the work that runs on strides: registration, external events, commands, duties,
the step boundary (02_strides_and_time.md R33-R43; 05 R105; 04 R80, R84; 10 R224; 14 R308; 15 R350, R359). -/

namespace Sys2Proof.Machine

def modTime (f : TimeSt → TimeSt) (e : Engine) : Engine := { e with time := f e.time }
def modSched (f : SchedSt → SchedSt) (e : Engine) : Engine := { e with sched := f e.sched }

/-! ## Commands and walks at their effect strides (R42, R59, R224) -/

/-- Accepted packets whose effect stride is at or behind `n`, as (ring, ring index) in the order of R42. -/
def dueCmds (n : Stride) (e : Engine) : List (Nat × U32) :=
  (tenants e).flatMap (fun tc =>
    ((ten e tc).ring.accepted.filter (fun a => !a.late && reached a.eff n)).map (fun a => (tc, a.h.ridx)))

def accAt (e : Engine) (tc : Nat) (ridx : U32) : Option Acc := (ten e tc).ring.accepted.find? (fun a => a.h.ridx == ridx)

def modAcc (tc : Nat) (ridx : U32) (f : Acc → Acc) (e : Engine) : Engine :=
  modRing tc (fun r => { r with accepted := r.accepted.map (fun a => if a.h.ridx = ridx then f a else a) }) e

def dropAcc (tc : Nat) (ridx : U32) (e : Engine) : Engine :=
  modRing tc (fun r => { r with accepted := r.accepted.filter (fun a => a.h.ridx != ridx) }) e

/-- One accepted packet at its effect stride: it takes effect, or waits for its preparation (R59). -/
def applyAcc (x : Nat × U32) (e : Engine) : Engine :=
  match accAt e x.1 x.2 with
  | none => e
  | some a =>
    if a.reads = 0 then applyCmd [x.1, x.2.toNat] a.h a.cmd a.late a.err (dropAcc x.1 x.2 e)
    else modAcc x.1 x.2 (fun a => { a with late := true }) e

def cmdsAt (n : Stride) (e : Engine) : Engine := (dueCmds n e).foldl (fun e x => applyAcc x e) e

/-- Preparation of a held command is complete: it takes effect at the current stride with OK_LATE (R59)
(DEDUCED, log entry 47). -/
def opPrepComplete (tc : Nat) (ridx : U32) (e : Engine) : Engine :=
  match accAt e tc ridx with
  | none => e
  | some a => if a.late && a.reads == 0 then applyAcc (tc, ridx) (markBreak 2 e) else e

/-- Held commands whose reads are all answered (DEDUCED, log entry 48). -/
def lateCmds (e : Engine) : Engine :=
  ((tenants e).flatMap (fun tc =>
    ((ten e tc).ring.accepted.filter (fun a => a.late && a.reads == 0)).map (fun a => (tc, a.h.ridx)))).foldl
      (fun e x => opPrepComplete x.1 x.2 e) e

/-- A walk that has reached its effect stride and is not yet over. -/
def walkDue (r : Req) : Bool :=
  match r.w.walk with
  | some w => w.due
  | none => false

/-- Walks reach their effect stride. -/
def walksAt (n : Stride) (e : Engine) : Engine :=
  { e with rq := { e.rq with slots := e.rq.slots.map (fun p => (p.1, { p.2 with w := { p.2.w with
    walk := p.2.w.walk.map (fun w => { w with due := w.due || reached w.eff n }) } })) } }

/-- The order of R42 between two places. -/
def ordLt : List Nat → List Nat → Bool
  | _, [] => false
  | [], _ :: _ => true
  | a :: as, b :: bs => decide (a < b) || (a == b && ordLt as bs)

/-- Walk `a` comes before walk `b` (R42, R224): an earlier effect stride, then the place of the starting command
(DEDUCED, log entry 55). -/
def walkBefore (a b : Stride × List Nat) : Bool := ahead b.1 a.1 || (a.1 == b.1 && ordLt a.2 b.2)

def walkPlace (r : Req) : Option (Stride × List Nat) :=
  match r.w.walk with
  | some w => if w.due then some (w.eff, r.w.waitOrd) else none
  | none => none

/-- A walk that is due and whose reads are answered takes effect. -/
def walkRun (slot : Nat) (e : Engine) : Engine :=
  match (reqAt e slot).bind (fun r => r.w.walk) with
  | none => e
  | some w => if !w.due || walkReads e slot then e else walkApply slot w.n w.resume e

/-- One due walk takes effect; past its effect stride it is a break (R224). -/
def walkOne (slot : Nat) (e : Engine) : Engine :=
  match (reqAt e slot).bind (fun r => r.w.walk) with
  | none => e
  | some w => walkRun slot (if !w.due || walkReads e slot || w.eff == e.time.num then e else markBreak 3 e)

/-- The walks of a skipped stride that are over take effect with its other work, in the order of R42 (R34); the others
are late. -/
def walksNow (n : Stride) (e : Engine) : Engine :=
  let e := walksAt n e
  let ws := e.rq.slots.filterMap (fun q => (walkPlace q.2).map (fun x => (q.1, x)))
  (sortBy (fun (a b : Nat × (Stride × List Nat)) => walkBefore a.2 b.2) ws).foldl (fun e q => walkRun q.1 e) e

/-- A walk is over: it takes effect, behind the due walks that come before it. -/
def opWalk (slot : Nat) (e : Engine) : Engine :=
  match (reqAt e slot).bind walkPlace with
  | none => e
  | some p =>
    let first := e.rq.slots.filterMap (fun q => match walkPlace q.2 with
      | some x => if walkBefore x p then some (q.1, x) else none
      | none => none)
    let first := sortBy (fun (a b : Nat × (Stride × List Nat)) => walkBefore a.2 b.2) first
    walkOne slot (first.foldl (fun e q => walkOne q.1 e) e)

/-! ## NS_PER_STRIDE (R37, R38) -/

/-- The measurement window closes: the period is written, unless the window is discarded. -/
def nspsClose (e : Engine) : Engine :=
  let t := e.time
  let v := match t.winStamp with
    | some s => 16 * (t.strideStamp - s).toNat
    | none => 0
  let e := modTime (fun t => { t with winStamp := some t.strideStamp, winBad := false }) e
  if t.winStamp.isNone || t.winBad || decide (v < 0x00100000) || decide (0xFFFFFFFF < v) then e
  else
    let m := BitVec.ofNat 32 v
    let e := modTime (fun t => { t with nspsMeas := m }) e
    if regB e rCP_TIME_CTRL 0 then addExt (.nsps m) e else e

/-- The commit takes effect. -/
def nspsCommit (v : U32) (e : Engine) : Engine :=
  modTime (fun t => { t with nsps := v }) (replayRec 5 0 0 (v.setWidth 64) e)

/-! ## External events (R41, R327, R362) -/

def isNsps : ExtEv → Bool
  | .nsps _ => true
  | _ => false

def objOf (hi lo : U32) : U64 := BitVec.ofNat 64 (hi.toNat * 2 ^ 32 + lo.toNat)

/-- One external event takes effect, with its replay-event record. -/
def extEffect (x : ExtEv) (e : Engine) : Engine :=
  match x with
  | .arrive id tray role member major minor stamp epoch =>
    peerArrive { id := id, tray := tray, role := role, member := member, major := major, minor := minor,
                 lastBeacon := stamp, ofs := none, epoch := epoch } (replayRec 1 role.toNat 0 (objOf tray id) e)
  | .leave id sub => match peerAt e id with
    | some (_, p) => peerGone id (replayRec 2 sub 0 (objOf p.tray id) e)
    | none => e
  | .trayLoss tray ids =>
    let here := ids.filter (fun i => (peerAt e i).isSome)
    if here.isEmpty then e
    else trayGone here (replayRec 3 0 0 (objOf tray (BitVec.ofNat 32 here.length)) e)
  | .order num fail =>
    let tc := match tget? e.kv.orders num.toNat with
      | some o => o.tc
      | none => 0
    orderDone num.toNat fail (replayRec 4 (b2n fail) tc (num.setWidth 64) e)
  | .baton src m =>
    batonIn src m (replayRec 6 (byteAt m 0) (byteAt m 2) (objOf src (BitVec.ofNat 32 (fieldAt m 4 4))) e)
  | .lane kind lane =>
    if laneNamed kind (laneOf e lane) then
      laneReport kind lane (replayRec 7 kind (laneOf e lane).tc (BitVec.ofNat 64 lane) e)
    else e
  | .nsps v => nspsCommit v e
  | .teardown tc cls => teardownNow tc cls e

/-! ## Host status words (R43, R316) -/

def wordSample (w : Word) (e : Engine) : Engine :=
  let now (h : U32) : Bool := match e.heat.cur with
    | some x => x.num == h && x.learn
    | none => false
  match w with
  | .stash level spill => stashSample level spill e
  | .region lane r => setLane lane { laneOf e lane with region := some r } e
  | .step lane start cost model => stepSample lane start cost model e
  | .amax h t v => if now h then amaxSample t v e else e
  | .digest h t c v => if now h then digestSample t c v e else e

/-! ## The step boundary (R105) -/

/-- With SPR_SPEC_CTRL.EN 0 the drafts held are discarded (R164). -/
def draftsOff (e : Engine) : Engine :=
  if specOn e then e
  else { e with rq := { e.rq with slots := e.rq.slots.map (fun p =>
    (p.1, { p.2 with w := { p.2.w with draft := p.2.w.draft.drop } })) } }

/-- A request whose KV is ready leaves ADMITTED (R80), its penalty window rebuilt (R305). -/
def leaveAdmitted (slot : Nat) (e : Engine) : Engine :=
  match reqAt e slot with
  | none => e
  | some r =>
    let held := match r.w.notBefore with
      | some s => ahead s e.time.num
      | none => false
    if r.e.st = .admitted ∧ r.w.kvReady ∧ !r.w.freeNext ∧ !held then
      rebuildWin slot (modEng slot (fun x => { x with st := if r.e.kvpos + 1 < ctxOf r then .prefilling else .running }) e)
    else e

/-- Free slots are offered to requests parked for lack of slots (R84). -/
def slotOffers (e : Engine) : Engine :=
  let want := e.rq.parked.filter (fun p => p.req.e.st == .parked && p.req.e.parkCause == 1)
  let want := sortBy (fun (a b : Parked) => (a.req.d.lc && !b.req.d.lc)
    || (a.req.d.lc == b.req.d.lc && decide (a.seq < b.seq))) want
  want.foldl (fun e p => match assignSlot e p.req.tc with
    | some slot => unparkTo slot p [256, slot] e
    | none => e) e

/-- P1 to P4. The plan store was written at the effect stride of its command; in HOLD a heat may still be computing, and
the learn owner's steps wait for it. -/
def boundaryFirst (e : Engine) : Engine :=
  let e := if e.sched.held then markBreak 1 e else e
  let e := modSched (fun s => { s with bndWait := false, held := false }) e
  let e := repins (draftsOff (heatFinish e))
  let e := (tkeys e.rq.slots).foldl (fun e s => insertReq s e) e
  let e := (tkeys e.rq.slots).foldl (fun e s => pauseTreat s e) e
  if heatBusy e then e else learnSteps e

/-- The rest of a boundary in HOLD: no heat starts, and the last one is over (R385) (DEDUCED, log entry 17). -/
def holdHeat (e : Engine) : Engine :=
  let e := if heatBusy e then e else { e with heat := { e.heat with cur := none } }
  updateWaits [] (dlIrqs e)

/-- Steps 1 to 8, with the work of the other chapters between them. -/
def boundaryRest (e : Engine) : Engine :=
  let e := holdsEnd e.time.num true e
  let e := xsetsFree e
  let e := (tenants e).foldl (fun e tc => tenantBoundary tc e) e
  let e := freeRetired e
  let e := (tenants e).foldl (fun e tc => streamsFree tc e) e
  let e := (tkeys e.rq.slots).foldl (fun e s => leaveAdmitted s e) e
  let e0 := slowIrq (slotOffers e)
  let e := lateRules e0
  let (e, rs) := project (fellBack e0 e) e
  let e := countStale e
  let e := if inHold e then holdHeat e else match learning e, e.learn.owner with
    | true, some tc => learnHeat tc rs e
    | _, _ => genHeat rs e
  laneSnap e

/-- The boundary: P1 to P4, then a capture that acts at this stride, else the rest (R379, R380). -/
def boundaryRun (e : Engine) : Engine :=
  let e := boundaryFirst e
  if e.cap.asked.isSome then
    capFreeze (modSched (fun s => { s with agenda := .boundaryRest :: s.agenda }) e)
  else boundaryRest e

/-- Whether the boundary that waits may be taken: no heat computes, no command and no walk holds it (R34, R59, R224)
(DEDUCED, log entry 17). -/
def boundaryReady (e : Engine) : Bool :=
  !heatBusy e && !(tenants e).any (fun tc => (ten e tc).ring.accepted.any (·.late))
    && !e.rq.slots.any (fun p => walkDue p.2)

/-! ## Duties of the registered stride (R36 steps 5 to 9; DESIGN CHOICE, log entry 10) -/

/-- A duty, taken off the agenda. In IDLE and below a boundary is a plain stride (R350). -/
def dutyRun (d : Duty) (e : Engine) : Engine :=
  match d with
  | .nspsWindow => nspsClose e
  | .lease => renewStart e
  | .ttl => ttlScan e.time.num e
  | .holds => holdsEnd e.time.num false e
  | .boundary =>
    if 2 ≤ e.pwr.eng then holdsEnd e.time.num false (modSched (fun s => { s with bndWait := false, held := false }) e)
    else boundaryRun e
  | .boundaryRest => boundaryRest e
  | .windows => windowClose e

/-- Run duties in order up to and including `upto`, or all; a boundary that must wait stops them
(DEDUCED, log entry 54). -/
def runDuties : Nat → Option Duty → Engine → Engine
  | 0, _, e => e
  | n + 1, upto, e =>
    match e.sched.agenda with
    | [] => e
    | d :: ds =>
      if e.cap.busy || (d == .boundary && !inHold e && decide (e.pwr.eng < 2) && !boundaryReady e) then e
      else
        let e := dutyRun d (modSched (fun s => { s with agenda := ds }) e)
        if upto = some d then e else runDuties n upto e

/-- A duty row: the duties up to the one it names, when that is due. -/
def opDuty (d : Duty) (e : Engine) : Engine :=
  if e.sched.agenda.contains d then runDuties 9 (some d) e else e

/-- The boundary row, with a rest that a capture left over. -/
def opBoundary (e : Engine) : Engine :=
  opDuty (if e.sched.agenda.contains .boundaryRest then .boundaryRest else .boundary) e

/-- Before a stride registers, the work of the one before it ends, and its records are written (R363). A boundary that
cannot be taken is carried on (DEDUCED, log entry 56). -/
def finishStride (e : Engine) : Engine :=
  let e := runDuties 9 none (lateCmds e)
  let e := match e.sched.agenda with
    | .boundary :: ds => runDuties 9 none (holdsEnd e.time.num false (modSched (fun s => { s with agenda := ds }) e))
    | _ => e
  sayBreak (batonTimeouts e)

/-! ## Registration (R33-R36, R359) -/

/-- Offsets from `prev` below `gap` at which a skipped stride has work: multiples of 64, effect strides of packets and
walks, ends of terminal holds. -/
def skipped (prev : Stride) (gap : Nat) (e : Engine) : List Nat :=
  let d0 := 64 - prev.toNat % 64
  let mult := if gap ≤ d0 then [] else (List.range ((gap - 1 - d0) / 64 + 1)).map (fun i => d0 + 64 * i)
  let effs := (tenants e).flatMap (fun tc => (ten e tc).ring.accepted.map (fun a => (a.eff - prev).toNat))
  let walks := e.rq.slots.filterMap (fun p => p.2.w.walk.map (fun w => (w.eff - prev).toNat))
  let ends := (e.rq.slots.map (·.2) ++ e.rq.parked.map (·.req)).filterMap (fun r =>
    r.w.holdEnd.map (fun s => (s - prev).toNat))
  ((effs ++ walks ++ ends).filter (fun d => decide (0 < d ∧ d < gap))).foldl ninsert mult

/-- Log2 of the counter window (CP_TIME_CTRL.CWIN) (DEDUCED, log entry 53). -/
def windowLog (e : Engine) : Nat := min (regN e rCP_TIME_CTRL 7 4) 14 + 10

/-- The work of one skipped stride, run at the current one (R34) (DEDUCED, log entry 51)
(DEDUCED, log entry 52). -/
def skippedWork (s : Stride) (e : Engine) : Engine :=
  let e := walksNow s (cmdsAt s e)
  let on (k : Nat) (f : Engine → Engine) (e : Engine) : Engine := if s.toNat % k = 0 then f e else e
  let e := on 4096 (fun e => modTime (fun t => { t with winBad := true }) (nspsClose e)) e
  let e := on 256 (ttlScan s) (on 64 renewStart e)
  on (2 ^ windowLog e) windowClose (holdsEnd s false e)

/-- Duties of stride `n`, in the order of R36. -/
def dutiesOf (n : Stride) (bnd : Bool) (e : Engine) : List Duty :=
  let on (k : Nat) (d : Duty) : List Duty := if n.toNat % k = 0 then [d] else []
  on 4096 .nspsWindow ++ on 64 .lease ++ on 256 .ttl ++ [if bnd then .boundary else .holds]
    ++ on (2 ^ windowLog e) .windows

/-- HADDR of the time base (R386). -/
def hTime : HAddr := hOf ⟨0, .glb .timeBase⟩

/-- The boundary flag of a registered stride: plain in IDLE and below (R350); early while a heat computes (R34), which
in HOLD is no error (R385). -/
def flagIn (bnd : Bool) (e : Engine) : Engine :=
  if !bnd then e
  else
    let e := modSched (fun s => { s with bndWait := true }) e
    if heatBusy e && !inHold e then
      fault .boundaryEarly 0 .none hTime hTime (e.time.num.setWidth 64) (modSched (fun s => { s with held := true }) e)
    else e

/-- A stride registers and its work is done up to the duties. -/
def register (num : Stride) (bnd : Bool) (prev : Option Stride) (wake : Bool) (e : Engine) : Engine :=
  let gap := match prev with
    | some p => (num - p).toNat
    | none => 1
  let e := renewJudge e
  let plain := bnd && decide (2 ≤ e.pwr.eng)
  let bnd := bnd && !plain
  let exts := e.sched.ext
  let words := e.port.words
  let due := e.flt.due
  let e := modTime (fun t => { t with
    valid := true, bnd := bnd, num := num, strideStamp := t.stamp, afterWake := false,
    winBad := t.winBad || decide (1 < gap) }) e
  let e := { (modFlt (fun f => { f with due := [] }) (modSched (fun s => { s with ext := [] }) e)) with
    rq := { e.rq with tblBump := [] }, port := { e.port with words := [] } }
  let e := if plain && !inHold e then bumpSat rPWR_ERR 15 0 1 e else e
  let e := if wake then markBreak 5 e
    else if 1 < gap then
      let first := num - BitVec.ofNat 48 (gap - 1)
      markBreak 0 (faultAt .strideGap 0 .none hTime hTime
        (BitVec.ofNat 64 (first.toNat + min (gap - 1) 0xFFFF * 2 ^ 48)) num false e)
    else e
  let e := election (takeOffice e)
  let e := stashHigh (words.foldl (fun e w => wordSample w.2 e) e)
  let e := exts.foldl (fun e x => extEffect x.2 e) e
  let e := due.foldl (fun e c => contain c e) e
  let e := match prev with
    | some p => (skipped p gap e).foldl (fun e d => skippedWork (p + BitVec.ofNat 48 d) e) e
    | none => e
  let e := capNow (offersDue (walksAt num (cmdsAt num e)))
  let e := flagIn bnd e
  modSched (fun s => { s with agenda := dutiesOf num s.bndWait e }) e

/-- STRIDE_EVENT: `hclk` HCLK cycles after the event before it, which count on from the last one accepted (R308)
(DEDUCED, log entry 49) (DEDUCED, log entry 50). -/
def opStride (num : Stride) (bnd : Bool) (hclk : Nat) (e : Engine) : Engine :=
  let wake := e.time.afterWake
  let prev : Option Stride :=
    if wake then some e.time.retStride else if e.time.valid then some e.time.num else none
  let behind := match prev with
    | some p => !ahead num p
    | none => false
  let n := e.time.hclk + hclk
  if entryDeep e then e
  else if e.time.valid && decide (n < 16) then bumpSat rCP_PORT_ERR 63 56 1 (modTime (fun t => { t with hclk := n }) e)
  else
    let e := modTime (fun t => { t with hclk := 0 }) e
    if behind then faultAt .strideRepeat 0 .none hTime hTime (num.setWidth 64) e.time.num wake e
    else register num bnd prev wake (finishStride e)

/-! ## The commands -/

def execStrideEvent (num : Stride) (bnd : Bool) (hclk : Nat) (s : State) :=
  onEng (capGate (.strideEvent num bnd hclk) (opStride num bnd hclk)) s
def execBoundary (s : State) := onEng (capGate .boundary (strideWork opBoundary)) s
def execLeaseRenewal (s : State) := onEng (capGate .leaseRenewal (strideWork (opDuty .lease))) s
def execTtlScan (s : State) := onEng (capGate .ttlScan (strideWork (opDuty .ttl))) s
def execCounterWindowClose (s : State) := onEng (capGate .counterWindowClose (strideWork (opDuty .windows))) s
def execNspsWindowClose (s : State) := onEng (capGate .nspsWindowClose (strideWork (opDuty .nspsWindow))) s

/-- The terminal holds of this stride end: at a boundary with its work. -/
def opHoldEnd (e : Engine) : Engine := opDuty (if e.sched.agenda.contains .holds then .holds else .boundary) e
def execTerminalHoldEnd (s : State) := onEng (capGate .terminalHoldEnd (strideWork opHoldEnd)) s

/-- A measured period registered at an earlier stride is committed (R38, R41). -/
def opNspsAuto (e : Engine) : Engine :=
  let due (x : Stride × ExtEv) : Bool := isNsps x.2 && x.1 != e.time.num
  (e.sched.ext.filter due).foldl (fun e x => extEffect x.2 e)
    (modSched (fun s => { s with ext := s.ext.filter (fun x => !due x) }) e)

def execNspsAutoCommit (s : State) := onEng (capGate .nspsAutoCommit (strideWork opNspsAuto)) s

def execPreparationComplete (tc : U8) (ridx : U32) (s : State) :=
  onEng (capGate (.preparationComplete tc ridx) (strideWork (opPrepComplete tc.toNat ridx))) s

def execWalkEffect (slot : U16) (s : State) := onEng (capGate (.walkEffect slot) (strideWork (opWalk slot.toNat))) s

end Sys2Proof.Machine
end

