-- ==== Sys2Proof/Machine/Packets.lean ====
section
/-! DEFINITION. Packets at fetch and the memory ports (03_command_packets.md R40, R54-R62, R64, R103;
14_ports_and_partners.md R319, R320; 15 R346). -/

namespace Sys2Proof.Machine

/-! ## The opcode tables (R64) -/

/-- An opcode row: privileged, lead a in strides, lead t in ns, t per KiB of data, parameter bytes as (offset,
length). -/
structure OpRow where
  priv : Bool
  a : Nat
  t : Nat
  perK : Nat
  params : List (Nat × Nat)

def opRow (op : Nat) : Option OpRow :=
  match op with
  | 0x01 => some ⟨false, 1, 0, 0, []⟩
  | 0x02 => some ⟨true, 1, 0, 0, [(16, 4)]⟩
  | 0x03 => some ⟨true, 4, 5000, 20, [(16, 8), (24, 4)]⟩
  | 0x04 => some ⟨true, 4, 5000, 20, [(16, 8), (24, 1), (28, 2)]⟩
  | 0x05 => some ⟨true, 1, 500, 0, [(16, 8)]⟩
  | 0x06 => some ⟨true, 1, 0, 0, [(16, 1)]⟩
  | 0x07 => some ⟨true, 1, 500, 0, [(16, 8)]⟩
  | 0x08 => some ⟨true, 1, 0, 0, [(16, 8)]⟩
  | 0x09 => some ⟨true, 1, 0, 0, [(16, 8), (24, 4)]⟩
  | 0x0A => some ⟨true, 2, 0, 0, [(16, 8), (24, 4)]⟩
  | 0x0B => some ⟨true, 4, 5000, 20, [(16, 8), (24, 4)]⟩
  | 0x0C => some ⟨true, 1, 0, 0, [(16, 1), (17, 1)]⟩
  | 0x0D => some ⟨true, 2, 0, 0, [(16, 1), (17, 1), (18, 1)]⟩
  | 0x0E => some ⟨true, 2, 0, 0, [(16, 8)]⟩
  | 0x10 => some ⟨false, 1, 400, 0, [(16, 4), (24, 8)]⟩
  | 0x11 => some ⟨false, 1, 0, 0, [(16, 4), (20, 4), (24, 1)]⟩
  | 0x12 => some ⟨false, 1, 0, 0, [(16, 4)]⟩
  | 0x13 => some ⟨false, 1, 0, 0, [(16, 4)]⟩
  | 0x14 => some ⟨false, 1, 0, 0, [(16, 4), (20, 4), (24, 8)]⟩
  | 0x15 => some ⟨false, 2, 0, 0, [(16, 4), (20, 4)]⟩
  | 0x16 => some ⟨false, 1, 300, 20, [(16, 8), (24, 4), (28, 1), (32, 4)]⟩
  | 0x20 => some ⟨true, 2, 1000, 0, [(16, 8), (24, 1)]⟩
  | 0x21 => some ⟨true, 1, 0, 0, [(16, 1)]⟩
  | 0x22 => some ⟨false, 2, 1000, 0, [(16, 8), (24, 1), (26, 2), (28, 2), (30, 2)]⟩
  | 0x23 => some ⟨false, 1, 0, 0, [(16, 1), (18, 2), (20, 2), (22, 1)]⟩
  | 0x24 => some ⟨false, 1, 300, 0, [(16, 8), (24, 1), (26, 2)]⟩
  | 0x30 => some ⟨false, 1, 0, 0, [(16, 1)]⟩
  | 0x31 => some ⟨false, 1, 0, 0, [(16, 2)]⟩
  | 0x32 => some ⟨false, 1, 0, 0, [(16, 4), (20, 2), (24, 8)]⟩
  | 0x33 => some ⟨false, 1, 0, 0, [(16, 2)]⟩
  | 0x34 => some ⟨false, 1, 0, 0, [(16, 2)]⟩
  | 0x40 => some ⟨false, 1, 0, 0, [(16, 16)]⟩
  | 0x41 => some ⟨false, 1, 0, 0, [(16, 1), (20, 4)]⟩
  | 0x42 => some ⟨false, 1, 0, 0, [(16, 4)]⟩
  | 0x50 => some ⟨false, 1, 0, 0, [(16, 2), (18, 1)]⟩
  | 0x51 => some ⟨false, 1, 0, 0, [(16, 4), (20, 4)]⟩
  | _ => none

/-- The opcode and parameters of a packet, of a defined opcode (R64). -/
def parseCmd (p : List Byte) : Cmd :=
  let f8 (o : Nat) : U8 := BitVec.ofNat 8 (fieldAt p o 1)
  let f16 (o : Nat) : U16 := BitVec.ofNat 16 (fieldAt p o 2)
  let f32 (o : Nat) : U32 := BitVec.ofNat 32 (fieldAt p o 4)
  let f64 (o : Nat) : U64 := BitVec.ofNat 64 (fieldAt p o 8)
  match byteAt p 0 with
  | 0x02 => .setStrideRate (f32 16)
  | 0x03 => .policyLoad (f64 16) (f32 24)
  | 0x04 => .planLoad (f64 16) (f8 24) (f16 28)
  | 0x05 => .tenantOpen (f64 16)
  | 0x06 => .tenantClose (f8 16)
  | 0x07 => .tenantQos (f64 16)
  | 0x08 => .laneGrant (f64 16)
  | 0x09 => .laneReclaim (f64 16) (f32 24)
  | 0x0A => .contextSave (f64 16) (f32 24)
  | 0x0B => .contextRestore (f64 16) (f32 24)
  | 0x0C => .resetScope (f8 16) (f8 17)
  | 0x0D => .powerState (f8 16) (f8 17) (f8 18)
  | 0x0E => .capture (f64 16)
  | 0x10 => .admitReq (f32 16) (f64 24)
  | 0x11 => .pause (f32 16) (f32 20) (f8 24)
  | 0x12 => .resume (f32 16)
  | 0x13 => .cancel (f32 16)
  | 0x14 => .setBudget (f32 16) (f32 20) (f64 24)
  | 0x15 => .handoff (f32 16) (f32 20)
  | 0x16 => .regionPublish (f64 16) (f32 24) (f8 28) (f32 32)
  | 0x20 => .modelRegister (f64 16) (f8 24)
  | 0x21 => .modelEvict (f8 16)
  | 0x22 => .adapterRegister (f64 16) (f8 24) (f16 26) (f16 28) (f16 30)
  | 0x23 => .adapterRetire (f8 16) (f16 18) (f16 20) (f8 22)
  | 0x24 => .expertSet (f64 16) (f8 24) (f16 26)
  | 0x30 => .turnToLearn (f8 16)
  | 0x31 => .turnToGenerate (f16 16)
  | 0x32 => .learnConfig (f32 16) (f16 20) (f64 24)
  | 0x33 => .optStepDone (f16 16)
  | 0x34 => .stalenessCap (f16 16)
  | 0x40 => .seedSet (BitVec.ofNat 128 (fieldAt p 16 16))
  | 0x41 => .streamOpen (f8 16) (f32 20)
  | 0x42 => .streamClose (f32 16)
  | 0x50 => .counterLatch (f16 16) (f8 18)
  | 0x51 => .watchSet (f32 16) (f32 20)
  | _ => .nop

/-- Every parameter inside its stated range (R61 check 8). -/
def paramOk (c : Cmd) : Bool :=
  match c with
  | .setStrideRate n => decide (0x00100000 ≤ n.toNat)
  | .policyLoad _ n => decide (n.toNat ≤ 4194304)
  | .planLoad _ m n => decide (m.toNat < 32 ∧ 1 ≤ n.toNat ∧ n.toNat ≤ 4096)
  | .tenantClose m => decide (m.toNat ≤ 1)
  | .resetScope s i => s == 2 || (s == 1 && decide (i.toNat ≤ 3)) || (s == 3 && decide (i.toNat ≤ 63))
  | .powerState st sc q => decide (st.toNat ≤ 5 ∧ sc.toNat ≤ 1 ∧ q.toNat ≤ 3)
  | .pause _ _ t => t == 2 || t == 3
  | .setBudget _ m _ => decide (m.toNat ≤ 262144)
  | .regionPublish _ n k _ =>
    k == 0 || (k == 1 && decide (8 ≤ n.toNat ∧ n.toNat ≤ 16384 ∧ n.toNat % 8 = 0)) || (k == 2 && n == 576) || k == 3
  | .modelRegister _ m => decide (m.toNat < 32)
  | .modelEvict m => decide (m.toNat < 32)
  | .adapterRegister _ _ a v r => decide (a.toNat < 1024 ∧ v ≠ 0xFFFF ∧ 1 ≤ r.toNat ∧ r.toNat ≤ 256)
  | .adapterRetire _ _ _ f => decide (f.toNat ≤ 1)
  | .expertSet _ _ s => decide (1 ≤ s.toNat ∧ s.toNat ≤ 1023)
  | .turnToLearn m => decide (m.toNat ≤ 1)
  | .learnConfig t w s => decide (1 ≤ t.toNat ∧ t.toNat ≤ 16777216 ∧ 1 ≤ w.toNat ∧ w.toNat ≤ 4095 ∧ 1 ≤ s.toNat)
  | .streamOpen k _ => decide (2 ≤ k.toNat ∧ k.toNat ≤ 4)
  | .counterLatch _ x => decide (x.toNat ≤ 1)
  | .watchSet f _ => decide (f.toNat < 16)
  | _ => true

/-- The tier-1 address of a packet: address, alignment, and the bytes its parameters name there (R61 check 9, R64). -/
def addrOf (c : Cmd) : Option (U64 × Nat × Nat) :=
  match c with
  | .policyLoad a n | .contextSave a n | .contextRestore a n => some (a, 4096, n.toNat)
  | .planLoad a _ n => some (a, 4096, 64 + 1024 * n.toNat)
  | .capture a => some (a, 4096, 44044288)
  | .adapterRegister a _ _ _ _ => some (a, 4096, 1)
  | .tenantOpen a | .tenantQos a | .modelRegister a _ => some (a, 64, 64)
  | .expertSet a _ _ => some (a, 64, 1)
  | .admitReq _ a => some (a, 128, 128)
  | .regionPublish a n k _ => some (a, if k = 3 then 4096 else 64, n.toNat)
  | _ => none

/-- Every tier-1 address aligned as stated, and inside the windows granted to TARGET, TC0's being all of tier 1
(R61 check 9; an opcode that ignores TARGET is TC0's); the spec grants none, and whether one is granted is free (DESIGN CHOICE, log entry 40). -/
def addrOk (target : Nat) (c : Cmd) : Bool :=
  match addrOf c with
  | none => true
  | some (a, n, len) => a.toNat % n == 0 && (target == 0 || Config.windowGranted target a.toNat len)

/-- Bytes of the data that the parameters name, for the lead (R58, R64). -/
def dataBytes (c : Cmd) : Nat :=
  match c with
  | .policyLoad _ n | .contextRestore _ n | .regionPublish _ n _ _ => n.toNat
  | .planLoad _ _ n => 64 + 1024 * n.toNat
  | _ => 0

/-- What preparation reads: address and bytes (R58, R65, R299). -/
def prepSpan (e : Engine) (target : Nat) (c : Cmd) : Option (Nat × Nat) :=
  match c with
  | .policyLoad a n | .contextRestore a n => some (a.toNat, n.toNat)
  | .planLoad a _ n => some (a.toNat, 64 + 1024 * n.toNat)
  | .tenantOpen a | .tenantQos a | .modelRegister a _ => some (a.toNat, 64)
  | .admitReq _ a => some (a.toNat, 128)
  | .regionPublish a n k _ => if k = 3 then none else some (a.toNat, n.toNat)
  | .laneReclaim .. => laneMapSpan e target
  | _ => none

/-! ## The checks at fetch (R61) -/

/-- Reserved header bits and every parameter byte the opcode does not define are zero. -/
def reservedOk (p : List Byte) (o : OpRow) : Bool :=
  byteAt p 1 < 32 && zeroRange p 14 16
    && (List.range 48).all (fun i => byteAt p (16 + i) == 0 || o.params.any (fun x => decide (x.1 ≤ 16 + i ∧ 16 + i < x.1 + x.2)))

/-- Opcodes that ignore TARGET (R57, R420) (DEDUCED, log entry 41). -/
def ignoresTarget (c : Cmd) : Bool := freeOfContext c && (match c with
  | .tenantOpen .. | .tenantClose .. => false
  | _ => true)

/-- Watch flags that the tenant's MODE does not allow (R374). -/
def watchDenied (e : Engine) (target : Nat) (c : Cmd) : Bool :=
  match c with
  | .watchSet f _ =>
    let mode := regN e (rDBG_TWATCH target) 31 30
    (f != 0 && (mode == 0 || mode == 3)) || (f.getLsbD 0 && mode != 2)
  | _ => false

/-- Opcodes accepted in HOLD (R62). -/
def holdSet : Cmd → Bool
  | .nop | .resetScope .. | .powerState .. | .capture .. => true
  | _ => false

/-- The status of the first check that fails; 0 when none does. -/
def fetchStatus (tc : Nat) (p : List Byte) (e : Engine) : Nat :=
  if byteAt p 2 ≠ 4 then sBAD_VERSION
  else match opRow (byteAt p 0) with
    | none => 0x10
    | some o =>
      let c := parseCmd p
      let target := byteAt p 3
      let sreq := BitVec.ofNat 48 (fieldAt p 8 6)
      if !reservedOk p o then 0x11
      else if tc ≠ 0 ∧ (o.priv ∨ (target ≠ tc ∧ !ignoresTarget c)) then 0x15
      else if watchDenied e target c then 0x15
      else if inHold e && !holdSet c then 0x31
      else if sreq ≠ 0 ∧ ahead sreq e.time.num ∧ 2 ^ 20 < (sreq - e.time.num).toNat then 0x14
      else if !paramOk c then sBAD_PARAM
      else if !addrOk (if ignoresTarget c then 0 else target) c then sBAD_ADDRESS
      else 0

/-- The effect stride of a packet (R40, R58). -/
def effStride (tc : Nat) (p : List Byte) (o : OpRow) (e : Engine) : Stride :=
  let t := o.t + o.perK * ceilDiv (dataBytes (parseCmd p)) 1024
  let lead := max o.a (nsToStr t e.time.nsps)
  let base := e.time.num + BitVec.ofNat 48 lead
  let sreq := BitVec.ofNat 48 (fieldAt p 8 6)
  let eff := if sreq ≠ 0 ∧ ahead sreq base then sreq else base
  match nbit (byteAt p 1) 0, (ten e tc).ring.prevE with
  | true, some x => if ahead x eff then x else eff
  | _, _ => eff

def hdrOf (tc : Nat) (p : List Byte) (ridx : U32) : Hdr :=
  { ring := BitVec.ofNat 8 tc, vec := BitVec.ofNat 3 (byteAt p 1 / 4), irq := nbit (byteAt p 1) 1,
    target := BitVec.ofNat 8 (byteAt p 3), tag := BitVec.ofNat 32 (fieldAt p 4 4), ridx := ridx }

/-- L3 memory port controller (R386). -/
def hMem (q : Nat) : HAddr := hTile q 7 q

/-- An accepted packet: its entry, its preparation, what its fetch starts (R55, R58, R103, R346)
(DEDUCED, log entry 44). -/
def acceptPkt (tc : Nat) (p : List Byte) (o : OpRow) (ridx : U32) (e : Engine) : Engine :=
  let c := parseCmd p
  let h := hdrOf tc p ridx
  let eff := effStride tc p o e
  let span := (prepSpan e h.target.toNat c).getD (0, 0)
  let a : Acc := { h := h, cmd := c, eff := eff, reads := lineCount span.1 span.2, err := false, late := false }
  let e := srStall tc (modRing tc (fun r => { r with accepted := r.accepted ++ [a], prevE := some eff }) e)
  let e := match c with
    | .planLoad _ _ n => planReserve ridx n.toNat e
    | _ => e
  let e := memRdIssue (tc % 4) span.1 span.2 (.prep (BitVec.ofNat 8 tc) ridx) e
  match runUnit c with
  | some u => if unitState e u = 1 ∧ !e.pwr.ungated.contains u then runWake u e else e
  | none => e

/-- Whether fetch from a ring is open: power (R345, R348), the ring (R52, R53) and HOLD (R62)
(DEDUCED, log entry 43). -/
def mayFetch (e : Engine) (tc : Nat) : Bool :=
  decide (e.pwr.eng < 2) && !e.pwr.entry.any (fun x => x.quad.isNone) && isOpen e tc && regB e (rCP_RING_CTRL tc) 0
    && reg e (rCP_CRING_HEAD tc) != reg e (rCP_CRING_TAIL tc) && (tc == 0 || !inHold e)

/-- A PLAN_LOAD behind an earlier PLAN_LOAD or MODEL_EVICT of TC0's ring waits (R103). -/
def planWaits (e : Engine) (tc op : Nat) : Bool :=
  tc == 0 && op == 4 && (ten e 0).ring.accepted.any (fun a => a.cmd.code == 0x04 || a.cmd.code == 0x21)

/-- The packets taken of each ring in the round of R54 under way, with its place: the highest ring taken. -/
def fetchPlace (e : Engine) : Nat := maxOf (tkeys e.sched.fetched) 0

/-- The ring whose turn it is, and the round it belongs to: up to 8 packets of TC0, then up to 8 of each other ring with
packets, in rising TC; then a new round (R54). -/
def fetchTurn (e : Engine) : Option Nat × Table Nat :=
  let ts := (tenants e).filter (fun t => mayFetch e t && !fetchStalled e t)
  match ts.find? (fun t => decide (fetchPlace e ≤ t ∧ tget 0 e.sched.fetched t < 8)) with
  | some t => (some t, e.sched.fetched)
  | none => (ts.head?, [])

/-- A ring has given `n` packets of its eight in the round. -/
def fetchCount (tc n : Nat) (e : Engine) : Engine := modSched (fun s => { s with
  fetched := tset (fetchTurn e).2 tc (tget 0 (fetchTurn e).2 tc + n) }) e

/-- A memory port has a free tag for a packet read (R54, R319). -/
def tagFree (e : Engine) (port : Nat) : Bool :=
  e.port.memWait.all (fun r => r.port.toNat != port)
    && decide ((e.port.tags.filter (fun t => t.1 / 256 == port)).length < 256)

/-- PACKET_FETCH: the next packet of a ring is read through MEM(TC mod 4), checked and accepted or answered, when it is the
ring's turn (R54-R62) (DESIGN CHOICE, log entry 42) (DEDUCED, log entry 45). -/
def opFetch (tc : Nat) (pkt : List Byte) (err : Bool) (e : Engine) : Engine :=
  let p := padTo 64 pkt
  if !mayFetch e tc then e
  else if fetchStalled e tc then setRegF (rCP_RING_STAT tc) 6 6 1 e
  else if (fetchTurn e).1 ≠ some tc || !tagFree e (tc % 4) then e
  else if !err && planWaits e tc (byteAt p 0) then fetchCount tc 8 e
  else
    let e := fetchCount tc 1 e
    let ridx : U32 := (reg e (rCP_CRING_HEAD tc)).setWidth 32
    let e := setReg (rCP_CRING_HEAD tc) ((ridx + 1).setWidth 64) e
    if err then
      let (v, e) := takeFree e
      let e := setRegF (rCP_RING_STAT tc) 7 7 1 e
      let a := (reg e (rCP_CRING_BASE tc)).toNat / 4096 * 4096
        + 64 * (ridx.toNat % 2 ^ regN e (rCP_CRING_BASE tc) 4 0)
      let e := fault .memError (BitVec.ofNat 8 tc) .none (hMem (tc % 4)) (hMem (tc % 4)) (BitVec.ofNat 64 a) e
      reply { ring := BitVec.ofNat 8 tc, vec := 0, irq := false, target := (v >>> 32).setWidth 8, tag := v.setWidth 32,
              ridx := ridx } 0 sMEM_ERROR 0 e
    else
      let st := fetchStatus tc p e
      match opRow (byteAt p 0) with
      | some o =>
        if st = 0 then acceptPkt tc p o ridx e else reply (hdrOf tc p ridx) (byteAt p 0) st 0 e
      | none => reply (hdrOf tc p ridx) (byteAt p 0) st 0 e

/-! ## Memory responses (R311, R319, R320) -/

/-- Entries at the front whose writes are visible: TAIL passes them and their vectors are raised (R60, R311)
(DEDUCED, log entry 46). -/
def srVisible (tc : Nat) : Nat → Engine → Engine
  | 0, e => e
  | fuel + 1, e =>
    match (ten e tc).ring.inflight with
    | w :: ws =>
      if w.seen then
        let e := setReg (rCP_SRING_TAIL tc) ((w.idx + 1).setWidth 64) (modRing tc (fun r => { r with inflight := ws }) e)
        srVisible tc fuel (match w.vec with
          | some v => raiseVec v e
          | none => e)
      else e
    | [] => e

def writeSeen (tc : Nat) (idx : U32) (e : Engine) : Engine :=
  let e := modRing tc (fun r => { r with
    inflight := r.inflight.map (fun w => if w.idx = idx then { w with seen := true } else w) }) e
  srVisible tc (ten e tc).ring.inflight.length e

/-- The tenant a preparation read is for: TARGET of its packet (R386). -/
def prepTenant (e : Engine) (tc : U8) (ridx : U32) : U8 :=
  match accAt e tc.toNat ridx with
  | some a => a.h.target
  | none => tc

/-- A read of an accepted packet's preparation is over. -/
def prepRead (tc : U8) (ridx : U32) (err : Bool) (e : Engine) : Engine :=
  modAcc tc.toNat ridx (fun a => { a with reads := a.reads - 1, err := a.err || err }) e

def lineBad (a : Nat) (e : Engine) : Engine := { e with bad := a :: e.bad.filter (· != a) }
def lineGood (a : Nat) (e : Engine) : Engine := { e with bad := e.bad.filter (· != a) }

/-- A read of a quadrant's reload is over (R397). -/
def reloadRead (q : Quad) (err : Bool) (e : Engine) : Engine :=
  modLead (fun l => { l with reload := l.reload.map (fun x =>
    if x.quad = q then { x with reads := x.reads - 1, err := x.err || err } else x) }) e

/-- A read of the Steep image is over (R360). -/
def steepRead (err : Bool) (e : Engine) : Engine :=
  modPwr (fun p => { p with steepReads := p.steepReads - 1, steepErr := p.steepErr || err }) e

/-- The reader of a read that is over. -/
def readDone (who : MemWho) (err : Bool) (e : Engine) : Engine :=
  match who with
  | .prep tc ridx => prepRead tc ridx err e
  | .reload q => reloadRead q err e
  | .steep => steepRead err e
  | .window slot => kvReadyCheck slot e
  | _ => e

/-- The tenant to whom a request's traffic belongs (R291, R386). -/
def memTenant (who : MemWho) (e : Engine) : U8 :=
  match who with
  | .prep tc ridx => prepTenant e tc ridx
  | .status tc _ => BitVec.ofNat 8 tc
  | .walk slot | .window slot => match reqAt e slot with
    | some r => BitVec.ofNat 8 r.tc
    | none => 0
  | _ => 0

/-- A request has failed (R319, R320, R386): the port reports it, the line of a read is bad, and its reader knows. What
becomes of the walk whose read it was is judged when the walk has its effect, with its report (R223). -/
def readFails (cls : FaultClass) (r : MemReq) (e : Engine) : Engine :=
  let h := hMem r.port.toNat
  let quiet := cls == .memError && match r.who with
    | .walk _ => true
    | _ => false
  let tc := memTenant r.who e
  let e := if quiet then e else fault cls tc .none h h (BitVec.ofNat 64 r.addr) e
  if r.write then e else readDone r.who true (lineBad r.addr e)

/-- MEMORY_RESPONSE: the answer to an outstanding tag, else stray (R319, R320). -/
def opMemResponse (port : Quad) (tag : U8) (err : Bool) (data : List Byte) (e : Engine) : Engine :=
  let k := port.toNat * 256 + tag.toNat
  match tget? e.port.tags k with
  | none => bumpSat rCP_PORT_ERR 15 0 1 e
  | some r =>
    let e := memPump { e with port := { e.port with tags := tdel e.port.tags k } }
    if r.who = .late then bumpSat rCP_PORT_ERR 15 0 1 e
    else if r.write then match r.who with
      | .status tc idx => writeSeen tc idx e
      | _ => e
    else if err then readFails .memError r e
    else readDone r.who false (lineGood r.addr (wr r.addr (padTo 64 data) e))

/-- MEM_TIMEOUT: the request is an uncorrectable error (R320). A status write that is never answered stays unseen. The tag
is not used again before its late response has come and been discarded (DEDUCED, log entry 105). -/
def opMemTimeout (port : Quad) (tag : U8) (e : Engine) : Engine :=
  let k := port.toNat * 256 + tag.toNat
  match tget? e.port.tags k with
  | none => e
  | some r =>
    if r.who = .late then e
    else
      let e := { e with port := { e.port with tags := tset e.port.tags k { r with who := .late } } }
      readFails .memTimeout r (count 2 12 1 (bumpSat rCP_PORT_ERR 31 16 1 e))

/-! ## The commands -/

def execPacketFetch (tc : U8) (pkt : List Byte) (err : Bool) (s : State) :=
  onEng (capGate (.packetFetch tc pkt err) (opFetch tc.toNat pkt err)) s
def execMemoryResponse (port : Quad) (tag : U8) (err : Bool) (data : List Byte) (s : State) :=
  onEng (capGate (.memoryResponse port tag err data) (opMemResponse port tag err data)) s
def execMemTimeout (port : Quad) (tag : U8) (s : State) :=
  onEng (capGate (.memTimeout port tag) (opMemTimeout port tag)) s

end Sys2Proof.Machine
end

