-- ==== Sys2Proof/Machine/Access.lean ====
section
/-! DEFINITION. The control port: register reads and writes under the view, alignment, guard, W1C, RC and split
rules, the values of RO fields that other state holds, the behaviours of writes, and the accesses that wait for a wake
(18_register_map.md R400-R408; 13 R286; 14 R309, R310; and the register tables of every chapter). -/

namespace Sys2Proof.Machine

/-! ## RO fields whose value other state holds -/

/-- A value made of fields: (lowest bit, field value). -/
def fields (fs : List (Nat × Nat)) : U64 := BitVec.ofNat 64 ((fs.map (fun f => f.2 * 2 ^ f.1)).sum)

/-- Codes of the context states (R283). -/
def tsCode : TState → Nat
  | .free => 0 | .opened => 1 | .closing => 2 | .torn => 3

/-- Codes of the lane states (LANE_INFO.STATE). -/
def lnCode : LnState → Nat
  | .free => 0 | .granted => 1 | .saving => 2 | .releasing => 3

def optN (o : Option Nat) (d : Nat) : Nat := o.getD d

/-- CP_PEER_INFO, CP_PEER_STAT and CP_PEER_OFS of the selected entry. -/
def peerReg (k : Nat) (e : Engine) : U64 :=
  match tget? e.relay.peers (regN e rCP_PEER_SEL 7 0) with
  | none => 0
  | some p => match k with
    | 0 => fields [(32, p.id.toNat), (0, p.tray.toNat)]
    | 1 => fields [(31, 1), (30, b2n p.ofs.isSome), (28, p.role.toNat), (16, p.member.toNat), (8, p.major.toNat),
                   (0, p.minor.toNat)]
    | _ => p.ofs.getD 0

/-- VAR_ASLOT_INFO of the selected slot. -/
def aslotReg (e : Engine) : U64 :=
  let n := regN e rVAR_ASLOT_SEL 11 0
  match tget? e.aslots n with
  | none => 0
  | some a => fields [(62, if a.retired then 2 else 1), (61, b2n a.resident), (53, a.tc), (45, a.model), (35, a.adapter),
                      (19, a.version), (0, aslotRefs e n)]

/-- LANE_INFO of the selected lane. -/
def laneReg (e : Engine) : U64 :=
  let x := laneOf e (regN e rLANE_SEL 5 0)
  let tc := match x.st with
    | .free => 0
    | _ => x.tc
  fields [(48, x.smax), (32, x.slast), (8, lnCode x.st), (0, tc)]

/-- FLT_LEAD: the epoch in office, or the highest held when none leads. -/
def leadReg (e : Engine) : U64 :=
  let l := e.lead
  match l.pacer with
  | some p => fields [(32, l.epoch.toNat), (31, 1), (24, l.quorum.toNat), (16, p.toNat), (0, l.electCount)]
  | none => fields [(32, (maxHeld e [0, 1, 2, 3]).toNat), (24, l.quorum.toNat), (0, l.electCount)]

/-- FLT_ROOTREC. -/
def rootReg (e : Engine) : U64 :=
  let f := e.flt
  match f.rootRec with
  | none => 0
  | some (q, i) => fields [(31, b2n f.rootValid), (16, f.rootCls.toNat), (12, f.rootScope), (10, q), (0, i)]

/-- The bytes of a fault record (R387). -/
def FRec.bytes (r : FRec) : List Byte :=
  [BitVec.ofNat 8 (faultCode r.cls), BitVec.ofNat 8 r.scope, r.tc, if r.opened then 1 else 0] ++ le 4 r.count.toNat
    ++ le 8 r.root.toNat ++ le 8 r.reporter.toNat ++ le 6 r.fstr.toNat ++ le 6 r.lstr.toNat ++ le 2 r.epoch.toNat
    ++ [0, 0] ++ le 8 r.first.toNat ++ le 8 r.last.toNat ++ le 8 r.detail.toNat

/-- Word `w` of fault record `i` of quadrant `q`; a record never opened reads as the cleared region (R340). -/
def faultWord (e : Engine) (q i w : Nat) : U64 :=
  match tget? e.flt.recs (q * 448 + i) with
  | some r => BitVec.ofNat 64 (fieldAt r.bytes (8 * w) 8)
  | none => 0

/-- The registers of the privileged window whose value, or part of it, is held elsewhere. -/
def privValues : List (Nat × (Engine → U64)) := [
  (rCP_STRIDE, fun e => fields [(63, b2n e.time.valid), (48, b2n e.time.bnd), (0, e.time.num.toNat)]),
  (rCP_NSPS, fun e => e.time.nsps.setWidth 64),
  (rCP_NSPS_MEAS, fun e => e.time.nspsMeas.setWidth 64),
  (rCP_STAMP_EPOCH, fun e => e.time.epoch.setWidth 64),
  (rCP_SPLIT, fun e => e.time.stamp),
  (rCP_PEER_INFO, peerReg 0), (rCP_PEER_STAT, peerReg 1), (rCP_PEER_OFS, peerReg 2),
  (rRQT_LIVE, fun e => fields [(0, e.rq.slots.length)]),
  (rRQT_PARKED, fun e => fields [(0, e.rq.parked.length)]),
  (rRQT_PF_DIGEST, fun e => match e.pol with
    | some p => p.digest.setWidth 64
    | none => 0),
  (rHEAT_LAST, fun e => fields [(48, e.heat.lastPlan.toNat), (32, e.heat.lastFilled.toNat), (0, e.heat.lastHeat.toNat)]),
  (rHEAT_PLANS, fun e => fields [(0, storeFreeCount e)]),
  (rBRW_OPEN, fun e => fields [(0, ((tenants e).map (fun tc => (openStreams e tc).length)).sum)]),
  (rIDX_FREE, fun e => fields [(32, cachedBlks e), (0, freeBlks e)]),
  (rVAR_MODELS, fun e => setBits (tkeys e.models)),
  (rVAR_ADV, fun e => fields [(8, e.advice.2), (0, e.advice.1)]),
  (rVAR_ASLOT_INFO, aslotReg),
  (rVAR_ASLOTS, fun e => fields [(0, 4096 - e.aslots.length)]),
  (rTRN_STATE, fun e => fields [(31, b2n e.learn.owner.isSome), (16, optN e.learn.owner 0), (8, e.learn.lmodel)]),
  (rTRN_PVER, fun e => e.pver.setWidth 64),
  (rTRN_PROJ, fun e => fields [(0, e.learn.proj % 2 ^ 48)]),
  (rTRN_SCALE_STAT, fun e => setField (reg e rTRN_SCALE_STAT) 4 0 e.learn.left),
  (rLANE_FREE, freeLanes),
  (rLANE_INFO, laneReg),
  (rLANE_ADV, fun e => e.lanes.adv),
  (rLANE_SWLAST, fun e => fields [(32, e.lanes.swPred.toNat), (0, e.lanes.swMeas.toNat)]),
  (rPWR_STATE, fun e => fields [(12, unitCode e 3), (9, unitCode e 2), (6, unitCode e 1), (3, unitCode e 0), (0, unitCode e 4)]),
  (rPWR_STATUS, fun e => fields [(31, b2n e.pwr.vwarnNow), (30, b2n e.pwr.vwarn), (29, b2n e.pwr.retlost),
                                 (28, b2n e.pwr.bor), (26, e.pwr.steep)]),
  (rDBG_HANG_STAT, fun e => fields ((List.range 4).map (fun q => (28 + q, b2n (hangOf e q).frozen)))),
  (rDBG_HANG_DATA, fun e => hangWord (hangOf e (regN e rDBG_HANG_SEL 14 13)) (regN e rDBG_HANG_SEL 12 0)),
  (rDBG_CAP_STAT, fun e => fields [(63, b2n (e.cap.busy || e.cap.asked.isSome)), (62, b2n e.cap.valid),
                                   (0, e.cap.cstr.toNat)]),
  (rFLT_HOLD, fun e => fields [(5, b2n e.flt.kat), (4, b2n e.flt.stride), (3, b2n e.flt.fault), (2, b2n e.flt.quad),
                               (1, b2n e.lead.pacer.isNone), (0, b2n (inHold e))]),
  (rFLT_LEAD, leadReg),
  (rFLT_ROOT, fun e => e.flt.rootHaddr),
  (rFLT_ROOTREC, rootReg),
  (rFLT_DATA, fun e => faultWord e (regN e rFLT_SEL 13 12) (regN e rFLT_SEL 11 3) (regN e rFLT_SEL 2 0)) ]

/-- The registers of the page of tenant `tc` whose value, or part of it, is held elsewhere, by page offset. -/
def pageValues (tc : Nat) : List (Nat × (Engine → U64)) := [
  (0x30, fun e => fields [(8, (ten e tc).fclass.toNat), (0, tsCode (ten e tc).st)]),
  (0x60, fun e => setBits ((openStreams e tc).map (·.1))),
  (0x64, fun e => (ten e tc).opencnt.setWidth 64),
  (0xB0, fun e => fields [(16, (ten e tc).learn.lver.toNat), (3, b2n (ten e tc).learn.park), (0, lsCode (turnOf e tc))]),
  (0xB4, fun e => (ten e tc).learn.twin.setWidth 64),
  (0x180, fun e => setBits (lanesOf e tc [.granted])),
  (0x190, fun e => setField (reg e (rLANE_TSLOW tc)) 31 16 (ten e tc).smax),
  (0x1C8, fun e => setField (reg e (rDBG_TWATCH tc)) 3 0 (ten e tc).dflt.toNat) ]

/-- The value that register `o` holds; a measured counter and a record index past 447 are free values
(DESIGN CHOICE, log entry 62). -/
def regValue (o : Nat) (e : Engine) : U64 × Engine :=
  if o = rDBG_CNT then counterVal (regN e rDBG_CNT_SEL 23 8) (regN e rDBG_CNT_SEL 31 24) (regN e rDBG_CNT_SEL 4 0) e
  else if o = rFLT_DATA ∧ 448 ≤ regN e rFLT_SEL 11 3 then takeFree e
  else
    let look := if o < 0x1000 then tget? privValues o else tget? (pageValues ((o - 0x100000) / 0x1000)) (o % 0x1000)
    match look with
    | some f => (f e, e)
    | none => (reg e o, e)

/-! ## Reads (R309, R310, R402) -/

/-- Clear the RC fields of a register. -/
def rcClear (r : RegInfo) (e : Engine) : Engine :=
  if r.rc = 0 then e else setReg r.off (reg e r.off &&& ~~~(BitVec.ofNat 64 r.rc)) e

/-- A 64-bit register of which software writes no bit: its low half, read, latches its high half (R310). -/
def latches (r : RegInfo) : Bool := r.wide && (r.rw ||| r.rwp ||| r.w1c ||| r.wo) == 0

/-- The whole of a register, read with its clearing. Write-only fields read zero. -/
def readWhole (r : RegInfo) (e : Engine) : U64 × Engine :=
  let (v, e) := regValue r.off e
  (v &&& ~~~(BitVec.ofNat 64 r.wo), rcClear r e)

/-- A 32-bit read at an aligned offset. -/
def read32 (o : Nat) (e : Engine) : U64 × Engine :=
  match infoAt o with
  | some r =>
    let (v, e) := readWhole r e
    let e := if latches r then { e with hiLatch := tset e.hiLatch o ((v >>> 32).setWidth 32) } else e
    (v &&& 0xFFFFFFFF, e)
  | none =>
    match (if o % 8 = 4 then infoAt (o - 4) else none) with
    | none => (0, e)
    | some r =>
      if !r.wide then (0, e)
      else match latches r, tget? e.hiLatch (o - 4) with
        | true, some h => (h.setWidth 64, e)
        | _, _ =>
          let (v, e) := regValue r.off e
          ((v &&& ~~~(BitVec.ofNat 64 r.wo)) >>> 32, e)

/-- A 64-bit read at an aligned offset: a whole register, or two 32-bit reads (R401). -/
def read64 (o : Nat) (e : Engine) : U64 × Engine :=
  match infoAt o with
  | some r =>
    if r.wide then readWhole r e
    else
      let (a, e) := read32 o e
      let (b, e) := read32 (o + 4) e
      (a ||| (b <<< 32), e)
  | none =>
    let (b, e) := read32 (o + 4) e
    (b <<< 32, e)

/-! ## Guards (R404) -/

def changed (old new : U64) (hi lo : Nat) : Bool := bits old hi lo != bits new hi lo

/-- HEAT_CTRL.EN is 0 and RQT_LIVE reads 0. -/
def quiet (e : Engine) : Bool := !regB e rHEAT_CTRL 0 && e.rq.slots.isEmpty

/-- A MOVE or FETCH order is outstanding. -/
def movesOut (e : Engine) : Bool := ordAny e (fun o => o.op == 1 || o.op == 2)

def isGen (e : Engine) (tc : Nat) : Bool :=
  match turnOf e tc with
  | .gen => true
  | _ => false

/-- A privileged write of the privileged window that its guard forbids. -/
def guardPriv (o : Nat) (old new : U64) (e : Engine) : Bool :=
  let any := old != new
  let rise (n : Nat) : Bool := !bit old n && bit new n
  if o = rRQT_SPILL_BASE then any && (regB e rRQT_SPILL_CTRL 31 || !e.rq.parked.isEmpty)
  else if o = rRQT_SPILL_CTRL then changed old new 4 0 && (bit new 31 || !e.rq.parked.isEmpty)
  else if o = rBRW_GRANT_BASE then changed old new 63 17 && bit new 0
  else if o = rIDX_CTRL then
    (changed old new 4 0 && (bit new 31 || !quiet e)) || (rise 31 && (!quiet e || movesOut e))
  else if o = rIDX_BASE ∨ o = rIDX_KVPOOL ∨ o = rIDX_BTDIR_BASE ∨ o = rIDX_BTPG_BASE ∨ o = rIDX_BTPG_N ∨ o = rIDX_TIER then
    any && (regB e rIDX_CTRL 31 || !quiet e)
  else if o = rIDX_BQ_BASE then any && (regB e rIDX_CTRL 31 || reg e rIDX_BQ_TAIL != reg e rIDX_BQ_HEAD)
  else if o = rVAR_XSET_BASE then changed old new 63 18 && bit new 0
  else if o = rTRN_SCALE_BASE then changed old new 63 15 && bit new 0
  else if o = rTRN_XCHK_BASE then changed old new 63 10 && bit new 0
  else if o = rCP_RELAY_ID then any && regB e rCP_RELAY_CFG 31
  else if o = rCP_RELAY_CFG then changed old new 63 32 && bit new 31
  else false

/-- The same for page offset `p` of tenant `tc`. -/
def guardPage (tc p : Nat) (old new : U64) (e : Engine) : Bool :=
  let any := old != new
  match p with
  | 0x0 => any && regB e (rCP_RING_CTRL tc) 0
  | 0x10 => any && regB e (rCP_RING_CTRL tc) 1
  | 0xA0 => any && !(isGen e tc && (ten e tc).learn.store.isEmpty)
  | 0xA8 => any && !isGen e tc
  | _ => false

/-! ## What writes do -/

/-- DOORBELL (R53): the spec names no object for the notice (DESIGN CHOICE, log entry 5). -/
def opDoorbell (tc : Nat) (v : U32) (e : Engine) : Engine :=
  let head : U32 := (reg e (rCP_CRING_HEAD tc)).setWidth 32
  let tail : U32 := (reg e (rCP_CRING_TAIL tc)).setWidth 32
  if 2 ^ regN e (rCP_CRING_BASE tc) 4 0 < (v - head).toNat ∨ (v - head).toNat < (tail - head).toNat then
    notice tc 0x40 (Config.doorbellObject tc).toNat tc (setRegF (rCP_RING_STAT tc) 5 5 1 e)
  else setReg (rCP_CRING_TAIL tc) (v.setWidth 64) e

/-- A write of CP_SRING_HEAD: waiting entries are written (R55, R56). -/
def opSrHead (tc : Nat) (v : U32) (e : Engine) : Engine :=
  reclaimOrders (srFlush tc (setReg (rCP_SRING_HEAD tc) (v.setWidth 64) e))

def ringLogOk (n : Nat) : Bool := decide (6 ≤ n ∧ n ≤ 16)

/-- A write of CP_RING_CTRL (R52, R423) (DEDUCED, log entry 61). -/
def opRingCtrl (tc : Nat) (new : U64) (e : Engine) : Engine :=
  let o := rCP_RING_CTRL tc
  let old := reg e o
  let cr := bit new 0 && !bit old 0
  let sr := bit new 1 && !bit old 1
  if (cr || sr) && !isOpen e tc then e
  else if (cr && !ringLogOk (regN e (rCP_CRING_BASE tc) 4 0)) || (sr && !ringLogOk (regN e (rCP_SRING_BASE tc) 4 0)) then e
  else
    let e := setReg o new e
    let e := if cr then setReg (rCP_CRING_HEAD tc) (reg e (rCP_CRING_TAIL tc)) e else e
    if sr then
      reclaimOrders (srFlush tc (modRing tc (fun r => { r with inflight := [], phase := true })
        (setReg (rCP_SRING_TAIL tc) (reg e (rCP_SRING_HEAD tc)) e)))
    else e

/-- A write of a vector's control word: clearing MASK delivers a pending message (R302)
(DEDUCED, log entry 63). -/
def opVecCtrl (v : VecId) (new : U64) (e : Engine) : Engine := releaseVec v (setReg (vecCtrl v) new e)

/-- BRW_GRANT_BASE: EN set writes every open stream's entry (R210). -/
def opGrantBase (new : U64) (e : Engine) : Engine :=
  let rise := bit new 0 && !grantOn e
  let e := setReg rBRW_GRANT_BASE new e
  if rise then (tenants e).foldl (fun e tc => grantTenant tc e) e else e

/-- VAR_XSET_BASE: EN set writes every defined set (R256). -/
def opXsetBase (new : U64) (e : Engine) : Engine :=
  let rise := bit new 0 && !xsetOn e
  let e := setReg rVAR_XSET_BASE new e
  if rise then (e.xsets.filter (fun x => x.2.owner.isSome)).foldl (fun e x => xsetWrite x.1 x.2 e) e else e

/-- IDX_CTRL: EN set clears the index (R239). -/
def opIdxCtrl (new : U64) (e : Engine) : Engine :=
  let rise := bit new 31 && !regB e rIDX_CTRL 31
  let e := setReg rIDX_CTRL new e
  if rise then idxClear e else e

/-- CP_RELAY_CFG: EN cleared sends DEPART to every present peer (R324) (DEDUCED, log entry 64). -/
def opRelayCfg (new : U64) (e : Engine) : Engine :=
  let e := if regB e rCP_RELAY_CFG 31 && !bit new 31 then departAll e else e
  setReg rCP_RELAY_CFG new e

/-- IDX_BDONE (R228). -/
def opBdone (v : U64) (e : Engine) : Engine := orderReportIn (v.setWidth 32) (bit v 32) e

/-- PWR_STATUS: VWARN, RETLOST and BOR clear on 1. -/
def opStatusClear (v : U64) (e : Engine) : Engine :=
  modPwr (fun p => { p with
    vwarn := p.vwarn && !bit v 30, retlost := p.retlost && !bit v 29, bor := p.bor && !bit v 28 }) e

/-- DBG_HANG_STAT: FROZEN bits clear on 1 (R377). -/
def opThaw (v : U64) (e : Engine) : Engine :=
  { e with hang := e.hang.map (fun h => if bit v (28 + h.1) then (h.1, { h.2 with frozen := false }) else h) }

/-- FLT_ROOTREC: VALID clears on 1 (R390). -/
def opRootClear (v : U64) (e : Engine) : Engine := if bit v 31 then modFlt (fun f => { f with rootValid := false }) e else e

/-- A write of the privileged window: `v` as written, `new` the stored value it makes (DEDUCED, log entry 65). -/
def writePriv (o : Nat) (v new : U64) (e : Engine) : Engine :=
  if 0x200 ≤ o ∧ o < 0x400 ∧ o % 16 = 12 then opVecCtrl (.pv (BitVec.ofNat 5 ((o - 0x200) / 16))) new e
  else if o = rBRW_GRANT_BASE then opGrantBase new e
  else if o = rVAR_XSET_BASE then opXsetBase new e
  else if o = rIDX_CTRL then opIdxCtrl new e
  else if o = rCP_RELAY_CFG then opRelayCfg new e
  else if o = rIDX_BQ_HEAD then ordFlush (setReg o new e)
  else if o = rIDX_BDONE then opBdone v e
  else if o = rLANE_ADV_SEL then laneAdvise (setReg o new e)
  else if o = rPWR_STATUS then opStatusClear v e
  else if o = rPWR_STEEP_CTRL then
    let e := setReg o new e
    if bit v 31 then steepLoad e else e
  else if o = rPWR_WAKE then if bit v 0 then wakeEvent 0 e else e
  else if o = rDBG_LATCH_BASE then { setReg o new e with latchNo := 0 }
  else if o = rDBG_HANG_CTRL then
    let e := setReg o new e
    if bit v 31 then hangAll 3 e else e
  else if o = rDBG_HANG_STAT then opThaw v e
  else if o = rFLT_HOLD then opHoldClear v.toNat e
  else if o = rFLT_ROOTREC then opRootClear v e
  else setReg o new e

/-- A write of a tenant page. -/
def writePage (tc p : Nat) (new : U64) (e : Engine) : Engine :=
  if p = 0x8 then opDoorbell tc (new.setWidth 32) e
  else if p = 0x1C then opSrHead tc (new.setWidth 32) e
  else if p = 0x20 then opRingCtrl tc new e
  else if 0x100 ≤ p ∧ p < 0x180 ∧ p % 16 = 12 then
    opVecCtrl (.tv (BitVec.ofNat 8 tc) (BitVec.ofNat 3 ((p - 0x100) / 16))) new e
  else if p = 0x1C0 then modTen tc (fun t => { t with latchNo := 0 }) (setReg (page tc p) new e)
  else setReg (page tc p) new e

/-- A write ignored under R404. -/
def guardErr (o : Nat) (e : Engine) : Engine := setRegF rCP_GUARD_ERR 20 0 o (bumpOpen rCP_GUARD_ERR 63 32 1 e)

/-- Write a whole register: the guard, then what the write does (R401, R404, R286). -/
def writeWhole (r : RegInfo) (v : U64) (priv : Bool) (e : Engine) : Engine :=
  let o := r.off
  let old := reg e o
  let m : U64 := BitVec.ofNat 64 (if priv then r.rw ||| r.rwp else r.rw)
  let w : U64 := BitVec.ofNat 64 r.w1c
  let new := ((old &&& ~~~m) ||| (v &&& m)) &&& ~~~(v &&& w)
  if (m ||| w ||| BitVec.ofNat 64 r.wo) = 0 then e
  else if o < 0x1000 then if guardPriv o old new e then guardErr o e else writePriv o v new e
  else
    let tc := (o - 0x100000) / 0x1000
    let p := o % 0x1000
    if priv && guardPage tc p old new e then guardErr o e else writePage tc p new e

/-- A 32-bit write at an aligned offset; a 64-bit register takes its halves with the write of the high one (R310)
(DEDUCED, log entry 60). -/
def write32 (o : Nat) (v : U64) (priv : Bool) (e : Engine) : Engine :=
  let v := v &&& 0xFFFFFFFF
  match infoAt o with
  | some r =>
    if r.wide then { e with wrLatch := tset e.wrLatch o (v.setWidth 32) } else writeWhole r v priv e
  | none =>
    match (if o % 8 = 4 then infoAt (o - 4) else none) with
    | none => e
    | some r =>
      if !r.wide then e
      else
        let lo := match tget? e.wrLatch (o - 4) with
          | some l => l.setWidth 64
          | none => reg e (o - 4) &&& 0xFFFFFFFF
        writeWhole r (lo ||| (v <<< 32)) priv { e with wrLatch := tdel e.wrLatch (o - 4) }

/-- The FROZEN bits that the engine sets from `e` to `e'` read 1 although the same access clears them (R403). -/
def setWins (e e' t : Engine) : Engine :=
  { t with hang := t.hang.map (fun h =>
      if (hangOf e' h.1).frozen && !(hangOf e h.1).frozen then (h.1, { h.2 with frozen := true }) else h) }

/-- A 64-bit write at an aligned offset (R401); its halves act in one cycle (R403). -/
def write64 (o : Nat) (v : U64) (priv : Bool) (e : Engine) : Engine :=
  match infoAt o with
  | some r =>
    if r.wide then writeWhole r v priv { e with wrLatch := tdel e.wrLatch o }
    else
      let e' := write32 o v priv e
      setWins e e' (write32 (o + 4) (v >>> 32) priv e')
  | none => write32 (o + 4) (v >>> 32) priv e

/-! ## The target channel (R286, R309, R405) -/

/-- DESIGN CHOICE, log entry 59. -/
def answer (d : U64) (err : Bool) (e : Engine) : Engine :=
  { e with port := { e.port with rsp := e.port.rsp ++ [{ data := d, err := err }] } }

/-- One access in service: alignment, then the view, then the register. The response of a write carries no data (0)
(DEDUCED, log entry 58). -/
def cpDo (a : CpAccess) (e : Engine) : Engine :=
  let o := a.off.toNat
  if o % (if a.size64 then 8 else 4) ≠ 0 then
    let e := bumpSat rCP_PORT_ERR 55 48 1 e
    if a.write then answer 0 true e
    else
      let (v, e) := takeFree e
      answer v true e
  else if !a.priv && decide (o < 0x10000) then answer 0 false (bumpOpen rCP_VIEW_ERR 31 0 1 e)
  else if a.write then
    answer 0 false (if a.size64 then write64 o a.data a.priv e else write32 o a.data a.priv e)
  else
    let (v, e) := if a.size64 then read64 o e else read32 o e
    answer v false e

/-- One of the 16 accesses that may be without a response is left (R309). -/
def cpRoom (e : Engine) : Bool := decide (e.pwr.held.length < 16)

/-- The port holds CPT_RDY at 0, or the access completes after the wake (R357, R405). -/
def cpWaits (e : Engine) : Bool :=
  decide (3 ≤ e.pwr.eng) || e.pwr.entry.any (fun x => x.quad.isNone && decide (4 ≤ x.target))

/-- A control-port request: in SLEEP, and in an entry to it, a wake event (R353, R357). -/
def cpWake (e : Engine) : Engine :=
  if e.pwr.eng = 3 ∨ e.pwr.entry.any (fun x => x.quad.isNone && x.target == 3) then wakeEvent 1 e else e

/-- A request on the target channel. One that waits is kept while fewer than 16 are without a response; beyond that it
is not accepted (DEDUCED, log entry 106). -/
def opCp (a : CpAccess) (e : Engine) : Engine :=
  if inReset e then e
  else
    let e := cpWake e
    if !cpWaits e then cpDo a e
    else if cpRoom e then modPwr (fun p => { p with held := p.held ++ [a] }) e
    else e

/-- The accesses that waited proceed, in order. -/
def cpRelease (e : Engine) : Engine :=
  if inReset e || cpWaits e then e
  else
    let hs := e.pwr.held
    hs.foldl (fun e a => cpDo a e) (modPwr (fun p => { p with held := [] }) e)

/-! ## The commands -/

def wr32 (o : Nat) (v : U32) (priv : Bool) : CpAccess :=
  { write := true, off := BitVec.ofNat 21 o, size64 := false, priv := priv, data := v.setWidth 64 }
def wr64 (o : Nat) (v : U64) (priv : Bool) : CpAccess :=
  { write := true, off := BitVec.ofNat 21 o, size64 := true, priv := priv, data := v }
def rdAcc (off : Offset) (size64 priv : Bool) : CpAccess :=
  { write := false, off := off, size64 := size64, priv := priv, data := 0 }

def execDoorbell (tc : U8) (tail : U32) (s : State) := onAny (opCp (wr32 (rCP_CRING_TAIL tc.toNat) tail false)) s
def execStatusRingHeadWrite (tc : U8) (head : U32) (s : State) :=
  onAny (opCp (wr32 (rCP_SRING_HEAD tc.toNat) head false)) s
def execRingEnable (tc : U8) (ctrl : U32) (priv : Bool) (s : State) :=
  onAny (opCp (wr32 (rCP_RING_CTRL tc.toNat) ctrl priv)) s
def execVectorCtrlWrite (v : VecId) (ctrl : U32) (priv : Bool) (s : State) := onAny (opCp (wr32 (vecCtrl v) ctrl priv)) s
def execHoldCauseClear (val : U32) (s : State) := onAny (opCp (wr32 rFLT_HOLD val true)) s
def execSteepLoad (val : U32) (s : State) := onAny (opCp (wr32 rPWR_STEEP_CTRL val true)) s
def execWake (val : U32) (s : State) := onAny (opCp (wr32 rPWR_WAKE val true)) s
def execHangTake (val : U32) (s : State) := onAny (opCp (wr32 rDBG_HANG_CTRL val true)) s
def execLaneAdvice (sel : U32) (s : State) := onAny (opCp (wr32 rLANE_ADV_SEL sel true)) s
def execGrantEnable (val : U64) (s : State) := onAny (opCp (wr64 rBRW_GRANT_BASE val true)) s
def execXsetEnable (val : U64) (s : State) := onAny (opCp (wr64 rVAR_XSET_BASE val true)) s
def execIndexEnable (val : U32) (s : State) := onAny (opCp (wr32 rIDX_CTRL val true)) s
def execRelayEnable (val : U64) (s : State) := onAny (opCp (wr64 rCP_RELAY_CFG val true)) s
def execBqHeadWrite (head : U32) (s : State) := onAny (opCp (wr32 rIDX_BQ_HEAD head true)) s
def execOrderReport (val : U64) (s : State) := onAny (opCp (wr64 rIDX_BDONE val true)) s
def execRegisterWrite (off : Offset) (size64 : Bool) (val : U64) (priv : Bool) (s : State) :=
  onAny (opCp { write := true, off := off, size64 := size64, priv := priv, data := val }) s
def execRcRead (off : Offset) (size64 priv : Bool) (s : State) := onAny (opCp (rdAcc off size64 priv)) s
def execLowHalfReadLatch (off : Offset) (priv : Bool) (s : State) := onAny (opCp (rdAcc off false priv)) s
def execRegisterRead (off : Offset) (size64 priv : Bool) (s : State) := onAny (opCp (rdAcc off size64 priv)) s
def execSleepCpAccessWake (a : CpAccess) (s : State) := onAny (opCp a) s

/-- A wake stage is ready; the accesses that waited for the wake proceed when it is complete. -/
def execWakeStageReady (s : State) := onAny (fun e => if inReset e then e else cpRelease (opWakeStage e)) s

/-- An entry step; an abandoned entry lets the port go on. -/
def execEntryStepComplete (s : State) := onEng (fun e => cpRelease (opEntryStep e)) s
def execQuiesceTimeout (tiles : List TileAt) (s : State) := onEng (fun e => cpRelease (opQuiesceTimeout tiles e)) s

/-- The host returns a beat credit: queued units go, and below 4,096 of them the blocks that wait on the drain port
pass (R318). -/
def opMpCredit (q : Nat) (e : Engine) : Engine :=
  drainPass q (mpFlush q (setMp q { mpOf e q with crd := (mpOf e q).crd + 1 } e))

def execManifestPortCredit (port : Quad) (s : State) :=
  onEng (capGate (.manifestPortCredit port) (opMpCredit port.toNat)) s

end Sys2Proof.Machine
end

