-- ==== Sys2Proof/Machine/Kettle.lean ====
section
/-! DEFINITION. The kettle port (14_ports_and_partners.md, R330-R333, R395, R413): a frame, its checks in
order, and the action of each command. -/

namespace Sys2Proof.Machine

/-- A reply: RES, DATA, CRC over both (R332). -/
def ketReply (res : Nat) (data : List Byte) (e : Engine) : Engine :=
  let r := le 1 res ++ data
  { e with ket := { e.ket with reply := r ++ [crc8 r] } }

/-- What a command that passes the checks of the frame does: its action, or RES 0x03. -/
abbrev KetAct := Engine → Engine

/-- A frame: heard only until an ADDR that is neither the engine's nor 0xFF (R330); every frame RES 0x03 under
TEST_MODE (R413); CRC, then the commands an all-call may carry, then the reserved ARG bits (R333). `cmd` is the CMD
byte sent, `argMask` the ARG bits the command defines, `act` none for a CMD that is not defined
(DEDUCED, log entry 91). -/
def ketFrame (addr cmd : Nat) (arg : U32) (crc : U8) (argMask : U32) (act : Option KetAct) (e : Engine) : Engine :=
  if e.ket.deaf then e
  else if addr ≠ regN e rKET_CTRL 7 0 ∧ addr ≠ 0xFF then { e with ket := { e.ket with deaf := true } }
  else if e.pwr.holdTest then ketReply 3 [] e
  else if crc8 (le 1 addr ++ le 1 cmd ++ le 4 arg.toNat) ≠ crc then ketReply 1 [] e
  else if addr = 0xFF ∧ cmd ≠ 0 ∧ cmd ≠ 1 ∧ cmd ≠ 3 then ketReply 3 [] e
  else match act with
    | none => ketReply 2 [] e
    | some f => if arg &&& ~~~argMask ≠ 0 then ketReply 2 [] e else f e

def ketNop (e : Engine) : Engine := ketReply 0 [] e

/-- The power state STATUS shows, entry and wake included (R345); in reset R345 gives the engine none, and it is a free value (DESIGN CHOICE, log entry 5). -/
def ketState (e : Engine) : Nat × Engine :=
  if inReset e then
    let (v, e) := takeFree e
    (bits v 2 0, e)
  else (unitCode e 4, e)

/-- STATUS (R332). -/
def ketStatus (e : Engine) : Engine :=
  let (st, e) := ketState e
  ketReply 0 (le 4 (fields [(29, st), (28, b2n (inHold e)), (27, b2n e.pwr.placementBad),
    (24, popc (e.lead.quorum.setWidth 64) 4), (0, e.time.epoch.toNat)]).toNat) e

/-- READ of the retention region of a quadrant (R332, R377, R387). The layout of AREA 2 and the words past the
fault records are free values (DESIGN CHOICE, log entry 5); AREA 3 is not defined and refused as a reserved ARG bit. -/
def ketRead (arg : U32) (e : Engine) : Engine :=
  let a := nbits arg.toNat 19 18
  let q := nbits arg.toNat 17 16
  let w := nbits arg.toNat 15 3
  if a = 3 then ketReply 2 [] e
  else if a = 0 then ketReply 0 (le 8 (hangWord (hangOf e q) w).toNat) e
  else if a = 1 ∧ w < 3584 then ketReply 0 (le 8 (faultWord e q (w / 8) (w % 8)).toNat) e
  else
    let (v, e) := takeFree e
    ketReply 0 (le 8 v.toNat) e

/-- WAKE (R332, R357). -/
def ketWake (e : Engine) : Engine :=
  if inReset e || !wakePossible 3 e then ketReply 3 [] e else ketReply 0 [] (wakeEvent 3 e)

/-- Whether ARBITRATE may name the quadrants of `m` (R395): it holds Q0 and at least two, two being neighbours. -/
def arbAllowed (m : U4) : Bool :=
  m.getLsbD 0 && decide (2 ≤ popc (m.setWidth 64) 4) && m != 0b0101#4

/-- ARBITRATE (R395): quadrants outside the mask are reset; the next election succeeds with the mask. -/
def ketArbitrate (arg : U32) (e : Engine) : Engine :=
  let m : U4 := arg.setWidth 4
  if !inService e || e.lead.pacer.isSome || !arbAllowed m then ketReply 3 [] e
  else
    let out := (List.range 4).filter (fun q => !m.getLsbD q)
    let e := out.foldl (fun e q => quadReset (BitVec.ofNat 2 q) e) e
    ketReply 0 [] (modLead (fun l => { l with arbMask := some m }) e)

/-! ## The commands -/

/-- A frame reset makes the engine expect a new frame (R331). -/
def execKettleFrameReset (s : State) := onAny (fun e => { e with ket := { e.ket with deaf := false } }) s

def execKettleNop (addr : U8) (arg : U32) (crc : U8) (s : State) :=
  onAny (ketFrame addr.toNat 0 arg crc 0 (some ketNop)) s
def execStatus (addr : U8) (arg : U32) (crc : U8) (s : State) :=
  onAny (ketFrame addr.toNat 1 arg crc 0 (some ketStatus)) s
def execRead (addr : U8) (arg : U32) (crc : U8) (s : State) :=
  onAny (ketFrame addr.toNat 2 arg crc 0xFFFF8 (some (ketRead arg))) s
def execKettleWake (addr : U8) (arg : U32) (crc : U8) (s : State) :=
  onAny (ketFrame addr.toNat 3 arg crc 0 (some ketWake)) s
def execArbitrate (addr : U8) (arg : U32) (crc : U8) (s : State) :=
  onAny (ketFrame addr.toNat 4 arg crc 0xF (some (ketArbitrate arg))) s

/-- A frame whose CMD the table of R332 does not define. -/
def execKettleUndefinedCmd (addr : U8) (cmd : U8) (arg : U32) (crc : U8) (s : State) :=
  onAny (ketFrame addr.toNat cmd.toNat arg crc 0 none) s

end Sys2Proof.Machine
end

