-- ==== Sys2Proof/Machine/Release.lean ====
section
/-! DEFINITION. The release phase of a photo-finish capture (R380): the commands that waited are acted on, each
by its own meaning. -/

namespace Sys2Proof.Machine

/-- Whether a held command is a stitch message: its quadrant acts on those first. -/
def isFlit : Instr → Bool
  | .partialArrival _ _ _ => true
  | .doneMarker _ _ => true
  | .renew _ => true
  | _ => false

/-- The engine after a meaning; a meaning that does not go on leaves it as it was. -/
def runOn (f : State → Host.Outcome State Fault Refusal) (e : Engine) : Engine :=
  match f { eng := e, pending := [] } with
  | .next t => t.eng
  | _ => e

/-- The meaning of a command that a freeze holds. Every other command acts during a freeze and is never held. -/
def redo (i : Instr) (e : Engine) : Engine :=
  match i with
  | .strideEvent n b h => runOn (execStrideEvent n b h) e
  | .boundary => runOn execBoundary e
  | .leaseRenewal => runOn execLeaseRenewal e
  | .ttlScan => runOn execTtlScan e
  | .counterWindowClose => runOn execCounterWindowClose e
  | .nspsWindowClose => runOn execNspsWindowClose e
  | .nspsAutoCommit => runOn execNspsAutoCommit e
  | .terminalHoldEnd => runOn execTerminalHoldEnd e
  | .packetFetch t p r => runOn (execPacketFetch t p r) e
  | .preparationComplete t r => runOn (execPreparationComplete t r) e
  | .nop a => runOn (execNop a) e
  | .setStrideRate a b => runOn (execSetStrideRate a b) e
  | .policyLoad a b c => runOn (execPolicyLoad a b c) e
  | .planLoad a b c d => runOn (execPlanLoad a b c d) e
  | .tenantOpen a b => runOn (execTenantOpen a b) e
  | .tenantClose a b => runOn (execTenantClose a b) e
  | .tenantQos a b => runOn (execTenantQos a b) e
  | .laneGrant a b => runOn (execLaneGrant a b) e
  | .laneReclaim a b c => runOn (execLaneReclaim a b c) e
  | .contextSave a b c => runOn (execContextSave a b c) e
  | .contextRestore a b c => runOn (execContextRestore a b c) e
  | .resetScopeQuadrant a b => runOn (execResetScopeQuadrant a b) e
  | .resetScopeTenant a b => runOn (execResetScopeTenant a b) e
  | .resetScopeLane a b => runOn (execResetScopeLane a b) e
  | .powerStateRun a b c => runOn (execPowerStateRun a b c) e
  | .powerStateStop a b c => runOn (execPowerStateStop a b c) e
  | .powerStateEntry a b c d => runOn (execPowerStateEntry a b c d) e
  | .capture a b => runOn (execCapture a b) e
  | .admitReq a b c => runOn (execAdmitReq a b c) e
  | .pause a b c d => runOn (execPause a b c d) e
  | .resume a b => runOn (execResume a b) e
  | .cancel a b => runOn (execCancel a b) e
  | .setBudget a b c d => runOn (execSetBudget a b c d) e
  | .handoff a b c => runOn (execHandoff a b c) e
  | .regionPublish a b c d x => runOn (execRegionPublish a b c d x) e
  | .modelRegister a b c => runOn (execModelRegister a b c) e
  | .modelEvict a b => runOn (execModelEvict a b) e
  | .adapterRegister a b c d x y => runOn (execAdapterRegister a b c d x y) e
  | .adapterRetire a b c d x => runOn (execAdapterRetire a b c d x) e
  | .expertSet a b c d => runOn (execExpertSet a b c d) e
  | .turnToLearn a b => runOn (execTurnToLearn a b) e
  | .turnToGenerate a b => runOn (execTurnToGenerate a b) e
  | .learnConfig a b c d => runOn (execLearnConfig a b c d) e
  | .optStepDone a b => runOn (execOptStepDone a b) e
  | .stalenessCap a b => runOn (execStalenessCap a b) e
  | .seedSet a b => runOn (execSeedSet a b) e
  | .streamOpen a b c => runOn (execStreamOpen a b c) e
  | .streamClose a b => runOn (execStreamClose a b) e
  | .counterLatch a b c => runOn (execCounterLatch a b c) e
  | .watchSet a b c => runOn (execWatchSet a b c) e
  | .logitsBlock a b c => runOn (execLogitsBlock a b c) e
  | .partialArrival a b c => runOn (execPartialArrival a b c) e
  | .doneMarker a b => runOn (execDoneMarker a b) e
  | .stepDone a b => runOn (execStepDone a b) e
  | .tokenRecordIssue a => runOn (execTokenRecordIssue a) e
  | .verifyItem a => runOn (execVerifyItem a) e
  | .draftRound a => runOn (execDraftRound a) e
  | .stashWord a b c => runOn (execStashWord a b c) e
  | .laneWord a b c => runOn (execLaneWord a b c) e
  | .laneReport a b c => runOn (execLaneReport a b c) e
  | .amaxWord a b c => runOn (execAmaxWord a b c) e
  | .digestWord a b c => runOn (execDigestWord a b c) e
  | .walkEffect a => runOn (execWalkEffect a) e
  | .memoryResponse a b c d => runOn (execMemoryResponse a b c d) e
  | .memTimeout a b => runOn (execMemTimeout a b) e
  | .manifestPortCredit a => runOn (execManifestPortCredit a) e
  | .renew a => runOn (execRenew a) e
  | .doorbell _ _ => e
  | .statusRingHeadWrite _ _ => e
  | .ringEnable _ _ _ => e
  | .vectorCtrlWrite _ _ _ => e
  | .holdCauseClear _ => e
  | .steepLoad _ => e
  | .steepVerifyComplete => e
  | .wake _ => e
  | .hangTake _ => e
  | .laneAdvice _ => e
  | .grantEnable _ => e
  | .xsetEnable _ => e
  | .indexEnable _ => e
  | .relayEnable _ => e
  | .bqHeadWrite _ => e
  | .orderReport _ => e
  | .registerWrite _ _ _ _ => e
  | .rcRead _ _ _ => e
  | .lowHalfReadLatch _ _ => e
  | .beacon _ => e
  | .beaconInterval => e
  | .peerDepartureTimer _ => e
  | .depart _ => e
  | .probe _ => e
  | .probeReply _ => e
  | .offsetProbeRound _ => e
  | .offer _ => e
  | .accept _ => e
  | .refuse _ => e
  | .complete _ => e
  | .abort _ => e
  | .batonTimeout _ => e
  | .kettleFrameReset => e
  | .kettleNop _ _ _ => e
  | .status _ _ _ => e
  | .read _ _ _ => e
  | .kettleWake _ _ _ => e
  | .arbitrate _ _ _ => e
  | .wakeIn _ => e
  | .sleepCpAccessWake _ => e
  | .wakeStageReady => e
  | .entryStepComplete => e
  | .quiesceTimeout _ => e
  | .stopGating => e
  | .tileIdleTimeout _ => e
  | .supplyWarning => e
  | .supplyWarningEnd => e
  | .brownOut => e
  | .brownOutRecovery _ _ => e
  | .rstN _ _ _ _ => e
  | .retlost => e
  | .testMode _ _ => e
  | .tbclkLockLoss => e
  | .tbclkRestart => e
  | .faultReport _ _ _ _ _ _ => e
  | .faultContainment _ _ _ => e
  | .tenantTeardown _ _ => e
  | .faultRecordClose _ _ => e
  | .faultInterruptRelease _ => e
  | .stitchLinkError _ => e
  | .quadrantRejoin _ _ => e
  | .hangWatchdog => e
  | .freezeMarker _ _ => e
  | .captureRelease => e
  | .pcSample _ _ _ _ _ => e
  | .traceFrame => e
  | .alignmentMarker => e
  | .registerRead _ _ _ => e
  | .discardedRelayMessage _ _ => e
  | .kettleUndefinedCmd _ _ _ _ => e
  | .repairWordLoad _ _ => e

/-- What waited in the freeze is acted on: the stitch messages, the rest of the capture boundary and the other commands,
in order. Strides that registered meanwhile run at their own numbers; one that freezes again holds what follows it. -/
def goOn (hs : List Instr) (e : Engine) : Engine :=
  let e := (hs.filter isFlit).foldl (fun e i => redo i e) e
  (hs.filter (fun i => !isFlit i)).foldl (fun e i => redo i e) (runDuties 9 none e)

/-- CAPTURE_RELEASE: once every quadrant holds both markers the image is written, and the engine goes on. After a reset
that has ended the capture it goes on without an image (R381) (DEDUCED, log entry 107). -/
def opRelease (e : Engine) : Engine :=
  let hs := e.cap.held
  if !frozen e then e
  else if !e.cap.busy then goOn hs { e with cap := { e.cap with held := [], markers := [] } }
  else if e.cap.markers.length != 8 then e
  else goOn hs (capWrite e)

def execCaptureRelease (s : State) := onEng opRelease s

end Sys2Proof.Machine
end

