-- ==== Sys2Proof/Machine/Dispatch.lean ====
section
/-! DEFINITION. One arm per row of the opcode table: the meaning each command calls. -/

namespace Sys2Proof.Machine

/-- The effect of a command on everything but the queue. -/
def exec (i : Instr) (s : State) : Host.Outcome State Fault Refusal :=
  match i with
  | .strideEvent num bnd hclk => Sys2Proof.Machine.execStrideEvent num bnd hclk s
  | .boundary => Sys2Proof.Machine.execBoundary s
  | .leaseRenewal => Sys2Proof.Machine.execLeaseRenewal s
  | .renew q => Sys2Proof.Machine.execRenew q s
  | .ttlScan => Sys2Proof.Machine.execTtlScan s
  | .counterWindowClose => Sys2Proof.Machine.execCounterWindowClose s
  | .nspsWindowClose => Sys2Proof.Machine.execNspsWindowClose s
  | .nspsAutoCommit => Sys2Proof.Machine.execNspsAutoCommit s
  | .terminalHoldEnd => Sys2Proof.Machine.execTerminalHoldEnd s
  | .packetFetch tc pkt err => Sys2Proof.Machine.execPacketFetch tc pkt err s
  | .preparationComplete tc ridx => Sys2Proof.Machine.execPreparationComplete tc ridx s
  | .nop h => Sys2Proof.Machine.execNop h s
  | .setStrideRate h nsps => Sys2Proof.Machine.execSetStrideRate h nsps s
  | .policyLoad h addr bytes => Sys2Proof.Machine.execPolicyLoad h addr bytes s
  | .planLoad h addr model count => Sys2Proof.Machine.execPlanLoad h addr model count s
  | .tenantOpen h qos => Sys2Proof.Machine.execTenantOpen h qos s
  | .tenantClose h mode => Sys2Proof.Machine.execTenantClose h mode s
  | .tenantQos h qos => Sys2Proof.Machine.execTenantQos h qos s
  | .laneGrant h mask => Sys2Proof.Machine.execLaneGrant h mask s
  | .laneReclaim h mask budget => Sys2Proof.Machine.execLaneReclaim h mask budget s
  | .contextSave h addr bytes => Sys2Proof.Machine.execContextSave h addr bytes s
  | .contextRestore h addr bytes => Sys2Proof.Machine.execContextRestore h addr bytes s
  | .resetScopeQuadrant h index => Sys2Proof.Machine.execResetScopeQuadrant h index s
  | .resetScopeTenant h index => Sys2Proof.Machine.execResetScopeTenant h index s
  | .resetScopeLane h index => Sys2Proof.Machine.execResetScopeLane h index s
  | .powerStateRun h scope quad => Sys2Proof.Machine.execPowerStateRun h scope quad s
  | .powerStateStop h scope quad => Sys2Proof.Machine.execPowerStateStop h scope quad s
  | .powerStateEntry h state scope quad => Sys2Proof.Machine.execPowerStateEntry h state scope quad s
  | .capture h addr => Sys2Proof.Machine.execCapture h addr s
  | .admitReq h rid desc => Sys2Proof.Machine.execAdmitReq h rid desc s
  | .pause h rid ttl tier => Sys2Proof.Machine.execPause h rid ttl tier s
  | .resume h rid => Sys2Proof.Machine.execResume h rid s
  | .cancel h rid => Sys2Proof.Machine.execCancel h rid s
  | .setBudget h rid maxTokens budgetNs => Sys2Proof.Machine.execSetBudget h rid maxTokens budgetNs s
  | .handoff h rid peer => Sys2Proof.Machine.execHandoff h rid peer s
  | .regionPublish h addr bytes kind handle => Sys2Proof.Machine.execRegionPublish h addr bytes kind handle s
  | .modelRegister h desc model => Sys2Proof.Machine.execModelRegister h desc model s
  | .modelEvict h model => Sys2Proof.Machine.execModelEvict h model s
  | .adapterRegister h table model adapter version rank => Sys2Proof.Machine.execAdapterRegister h table model adapter version rank s
  | .adapterRetire h model adapter version force => Sys2Proof.Machine.execAdapterRetire h model adapter version force s
  | .expertSet h mask model set => Sys2Proof.Machine.execExpertSet h mask model set s
  | .turnToLearn h mode => Sys2Proof.Machine.execTurnToLearn h mode s
  | .turnToGenerate h pver => Sys2Proof.Machine.execTurnToGenerate h pver s
  | .learnConfig h tokens window stash => Sys2Proof.Machine.execLearnConfig h tokens window stash s
  | .optStepDone h pver => Sys2Proof.Machine.execOptStepDone h pver s
  | .stalenessCap h cap => Sys2Proof.Machine.execStalenessCap h cap s
  | .seedSet h key => Sys2Proof.Machine.execSeedSet h key s
  | .streamOpen h cls rid => Sys2Proof.Machine.execStreamOpen h cls rid s
  | .streamClose h stream => Sys2Proof.Machine.execStreamClose h stream s
  | .counterLatch h group edge => Sys2Proof.Machine.execCounterLatch h group edge s
  | .watchSet h flags rid => Sys2Proof.Machine.execWatchSet h flags rid s
  | .doorbell tc tail => Sys2Proof.Machine.execDoorbell tc tail s
  | .statusRingHeadWrite tc head => Sys2Proof.Machine.execStatusRingHeadWrite tc head s
  | .ringEnable tc ctrl priv => Sys2Proof.Machine.execRingEnable tc ctrl priv s
  | .vectorCtrlWrite v ctrl priv => Sys2Proof.Machine.execVectorCtrlWrite v ctrl priv s
  | .holdCauseClear val => Sys2Proof.Machine.execHoldCauseClear val s
  | .steepLoad val => Sys2Proof.Machine.execSteepLoad val s
  | .steepVerifyComplete => Sys2Proof.Machine.execSteepVerifyComplete s
  | .wake val => Sys2Proof.Machine.execWake val s
  | .hangTake val => Sys2Proof.Machine.execHangTake val s
  | .laneAdvice sel => Sys2Proof.Machine.execLaneAdvice sel s
  | .grantEnable val => Sys2Proof.Machine.execGrantEnable val s
  | .xsetEnable val => Sys2Proof.Machine.execXsetEnable val s
  | .indexEnable val => Sys2Proof.Machine.execIndexEnable val s
  | .relayEnable val => Sys2Proof.Machine.execRelayEnable val s
  | .bqHeadWrite head => Sys2Proof.Machine.execBqHeadWrite head s
  | .orderReport val => Sys2Proof.Machine.execOrderReport val s
  | .registerWrite off size64 val priv => Sys2Proof.Machine.execRegisterWrite off size64 val priv s
  | .rcRead off size64 priv => Sys2Proof.Machine.execRcRead off size64 priv s
  | .lowHalfReadLatch off priv => Sys2Proof.Machine.execLowHalfReadLatch off priv s
  | .logitsBlock port tag payload => Sys2Proof.Machine.execLogitsBlock port tag payload s
  | .partialArrival src row pair => Sys2Proof.Machine.execPartialArrival src row pair s
  | .doneMarker src dst => Sys2Proof.Machine.execDoneMarker src dst s
  | .stepDone port tag => Sys2Proof.Machine.execStepDone port tag s
  | .tokenRecordIssue row => Sys2Proof.Machine.execTokenRecordIssue row s
  | .verifyItem row => Sys2Proof.Machine.execVerifyItem row s
  | .draftRound slot => Sys2Proof.Machine.execDraftRound slot s
  | .stashWord port tag payload => Sys2Proof.Machine.execStashWord port tag payload s
  | .laneWord port tag payload => Sys2Proof.Machine.execLaneWord port tag payload s
  | .laneReport port tag payload => Sys2Proof.Machine.execLaneReport port tag payload s
  | .amaxWord port tag payload => Sys2Proof.Machine.execAmaxWord port tag payload s
  | .digestWord port tag payload => Sys2Proof.Machine.execDigestWord port tag payload s
  | .walkEffect slot => Sys2Proof.Machine.execWalkEffect slot s
  | .memoryResponse port tag err data => Sys2Proof.Machine.execMemoryResponse port tag err data s
  | .memTimeout port tag => Sys2Proof.Machine.execMemTimeout port tag s
  | .beacon msg => Sys2Proof.Machine.execBeacon msg s
  | .beaconInterval => Sys2Proof.Machine.execBeaconInterval s
  | .peerDepartureTimer peer => Sys2Proof.Machine.execPeerDepartureTimer peer s
  | .depart msg => Sys2Proof.Machine.execDepart msg s
  | .probe msg => Sys2Proof.Machine.execProbe msg s
  | .probeReply msg => Sys2Proof.Machine.execProbeReply msg s
  | .offsetProbeRound peer => Sys2Proof.Machine.execOffsetProbeRound peer s
  | .offer msg => Sys2Proof.Machine.execOffer msg s
  | .accept msg => Sys2Proof.Machine.execAccept msg s
  | .refuse msg => Sys2Proof.Machine.execRefuse msg s
  | .complete msg => Sys2Proof.Machine.execComplete msg s
  | .abort msg => Sys2Proof.Machine.execAbort msg s
  | .batonTimeout baton => Sys2Proof.Machine.execBatonTimeout baton s
  | .kettleFrameReset => Sys2Proof.Machine.execKettleFrameReset s
  | .kettleNop addr arg crc => Sys2Proof.Machine.execKettleNop addr arg crc s
  | .status addr arg crc => Sys2Proof.Machine.execStatus addr arg crc s
  | .read addr arg crc => Sys2Proof.Machine.execRead addr arg crc s
  | .kettleWake addr arg crc => Sys2Proof.Machine.execKettleWake addr arg crc s
  | .arbitrate addr arg crc => Sys2Proof.Machine.execArbitrate addr arg crc s
  | .wakeIn ns => Sys2Proof.Machine.execWakeIn ns s
  | .sleepCpAccessWake a => Sys2Proof.Machine.execSleepCpAccessWake a s
  | .wakeStageReady => Sys2Proof.Machine.execWakeStageReady s
  | .entryStepComplete => Sys2Proof.Machine.execEntryStepComplete s
  | .quiesceTimeout tiles => Sys2Proof.Machine.execQuiesceTimeout tiles s
  | .stopGating => Sys2Proof.Machine.execStopGating s
  | .tileIdleTimeout tile => Sys2Proof.Machine.execTileIdleTimeout tile s
  | .supplyWarning => Sys2Proof.Machine.execSupplyWarning s
  | .supplyWarningEnd => Sys2Proof.Machine.execSupplyWarningEnd s
  | .brownOut => Sys2Proof.Machine.execBrownOut s
  | .brownOutRecovery straps found => Sys2Proof.Machine.execBrownOutRecovery straps found s
  | .rstN high vddaOk straps found => Sys2Proof.Machine.execRstN high vddaOk straps found s
  | .retlost => Sys2Proof.Machine.execRetlost s
  | .testMode on instrRun => Sys2Proof.Machine.execTestMode on instrRun s
  | .tbclkLockLoss => Sys2Proof.Machine.execTbclkLockLoss s
  | .tbclkRestart => Sys2Proof.Machine.execTbclkRestart s
  | .faultReport cls tc obj root detail packet => Sys2Proof.Machine.execFaultReport cls tc obj root detail packet s
  | .faultContainment cls tc obj => Sys2Proof.Machine.execFaultContainment cls tc obj s
  | .tenantTeardown tc cls => Sys2Proof.Machine.execTenantTeardown tc cls s
  | .faultRecordClose q index => Sys2Proof.Machine.execFaultRecordClose q index s
  | .faultInterruptRelease cls => Sys2Proof.Machine.execFaultInterruptRelease cls s
  | .stitchLinkError link => Sys2Proof.Machine.execStitchLinkError link s
  | .quadrantRejoin q src => Sys2Proof.Machine.execQuadrantRejoin q src s
  | .hangWatchdog => Sys2Proof.Machine.execHangWatchdog s
  | .freezeMarker q higher => Sys2Proof.Machine.execFreezeMarker q higher s
  | .captureRelease => Sys2Proof.Machine.execCaptureRelease s
  | .pcSample sq stall pc qcyc waitOn => Sys2Proof.Machine.execPcSample sq stall pc qcyc waitOn s
  | .traceFrame => Sys2Proof.Machine.execTraceFrame s
  | .alignmentMarker => Sys2Proof.Machine.execAlignmentMarker s
  | .manifestPortCredit port => Sys2Proof.Machine.execManifestPortCredit port s
  | .registerRead off size64 priv => Sys2Proof.Machine.execRegisterRead off size64 priv s
  | .discardedRelayMessage msg credit => Sys2Proof.Machine.execDiscardedRelayMessage msg credit s
  | .kettleUndefinedCmd addr cmd arg crc => Sys2Proof.Machine.execKettleUndefinedCmd addr cmd arg crc s
  | .repairWordLoad bank word => Sys2Proof.Machine.execRepairWordLoad bank word s

end Sys2Proof.Machine
end

