-- ==== Sys2Proof/Safety.lean ====
section
/-! DEFINITION. What a safe step is: one that answers a next state. -/

namespace Sys2Proof

/-- The machine goes on from `s`. -/
def goesOn (s : Machine.State) : Prop := ∃ t, Machine.step s = .next t

end Sys2Proof
end

