-- ==== Sys2Proof/Certificates/Slice0/Obligations.lean ====
section
/-! DEFINITION. The statements for the provers. Each is about every state and every operand its
hypotheses admit; where its conclusion is `exec i s = .next t`, `t` is given whole, so that what it
does not name is unchanged. -/

namespace Sys2Proof.Certs

open Sys2Proof.Machine

/-- The engine's ports are in service and no photo-finish capture holds commands back (R380). -/
def Free (s : State) : Prop := inService s.eng = true ∧ frozen s.eng = false

/-- The control port answers at once: no reset, no state below IDLE, no entry to one (R309, R357). -/
def PortOpen (s : State) : Prop :=
  inReset s.eng = false ∧ s.eng.pwr.eng < 3 ∧ ∀ x ∈ s.eng.pwr.entry, x.quad = none → x.target < 3

/-- The next state in which only the engine changes, to `e`: the queue is as it was. -/
def goes (s : State) (e : Engine) : Host.Outcome State Fault Refusal := .next { s with eng := e }

/-- The next state of a packet of opcode `op` that is done with RESULT `r`: the engine is `e` with the packet's
reply, STATUS 0, queued on its ring (R60, R66). -/
def answers (s : State) (h : Hdr) (op r : Nat) (e : Engine) : Host.Outcome State Fault Refusal :=
  goes s (settled (reply h op 0 r e))

/-- The CRC of a kettle frame (R330). -/
def frameCrc (addr cmd : U8) (arg : U32) : U8 := crc8 (le 1 addr.toNat ++ le 1 cmd.toNat ++ le 4 arg.toNat)

/-- The engine hears a frame sent to `addr` and answers it in its own right (R330, R413). -/
def Hears (e : Engine) (addr : U8) : Prop :=
  e.ket.deaf = false ∧ (addr.toNat = regN e rKET_CTRL 7 0 ∨ addr = 0xFF#8) ∧ e.pwr.holdTest = false

/-- The fields an engine reset clears, at the values of State.reset (R396). -/
def Cleared (e : Engine) : Prop :=
  e.ten = [] ∧ e.rq = Engine.fresh.rq ∧ e.plans = Engine.fresh.plans ∧ e.pol = none ∧ e.models = [] ∧ e.aslots = []
    ∧ e.xsets = [] ∧ e.regions = [] ∧ e.heat = HeatSt.fresh ∧ e.kv = KvSt.fresh ∧ e.pver = 0 ∧ e.learn = LearnSt.fresh
    ∧ e.lanes = Engine.fresh.lanes ∧ e.relay = Engine.fresh.relay ∧ e.cap = Engine.fresh.cap
    ∧ e.lead.pacer = none ∧ e.time.valid = false ∧ e.pwr.eng = 2

/-- A placement fault holds the engine in reset, cleared, and no RST_N command waits. -/
def HeldByPlacement (s : State) : Prop :=
  s.eng.pwr.placementBad = true ∧ Cleared s.eng ∧ s.eng.port.msgs = []
    ∧ ∀ c ∈ s.pending, ∀ high ok straps kat bad, c ≠ .rstN high ok straps ⟨kat, bad⟩

/-- The engine is in state `st`, no quadrant in one of its own, and no transition is under way. -/
def Resting (e : Engine) (st : Nat) : Prop :=
  e.pwr.eng = st ∧ e.pwr.quads = [] ∧ e.pwr.stopping = [] ∧ e.pwr.entry = [] ∧ e.pwr.waking = []

/-- The unit that SCOPE and QUAD of a POWER_STATE name. -/
def named (scope quad : U8) : Option Quad := if scope = 1 then some (quad.setWidth 2) else none

/-- Bit by bit, what a write of `v` leaves in a register: the fields the view may write take the written bits, a W1C field
clears where 1 is written, every other bit keeps its value (R401, R286). -/
def stored (r : RegInfo) (priv : Bool) (old v : U64) : U64 :=
  let m := BitVec.ofNat 64 (if priv then r.rw ||| r.rwp else r.rw)
  ((old &&& ~~~m) ||| (v &&& m)) &&& ~~~(v &&& BitVec.ofNat 64 r.w1c)

/-- The bits of a register that a write of the view acts on: writable, W1C and write-only ones. -/
def writable (r : RegInfo) (priv : Bool) : U64 :=
  BitVec.ofNat 64 (if priv then r.rw ||| r.rwp else r.rw) ||| BitVec.ofNat 64 r.w1c ||| BitVec.ofNat 64 r.wo

/-- Offsets of the privileged window whose write does more than store fields. -/
def actsOnWrite : List Nat :=
  [rBRW_GRANT_BASE, rVAR_XSET_BASE, rIDX_CTRL, rCP_RELAY_CFG, rIDX_BQ_HEAD, rIDX_BDONE, rLANE_ADV_SEL, rPWR_STATUS,
   rPWR_STEEP_CTRL, rPWR_WAKE, rDBG_LATCH_BASE, rDBG_HANG_CTRL, rDBG_HANG_STAT, rFLT_HOLD, rFLT_ROOTREC]

/-- Nothing waits on a reply: no completion owed with it, no reclaim, no capture to start. -/
def Quiet (e : Engine) : Prop := e.pwr.owed = [] ∧ e.lanes.reclaims = [] ∧ e.cap.atOnce = false

/-- The bytes of a 64-byte record at `a` that reads without error and carries VERSION 4. -/
def Readable64 (e : Engine) (a : U64) : Prop := badRange e a.toNat 64 = false ∧ rdN e a.toNat 1 = 4

/-- The checks of R94 and R96 on a policy image that reads without error. -/
def PolicyImage (e : Engine) (addr bytes : Nat) : Prop :=
  let img := rd e addr bytes
  let ns := byteAt img 6
  64 ≤ bytes ∧ badRange e addr bytes = false ∧ byteAt img 4 = 4 ∧ fieldAt img 0 4 = 0x7A504F4C
    ∧ fieldAt img 8 4 = bytes ∧ 64 + 64 * ns ≤ bytes ∧ crcOk img 12 = true ∧ 1 ≤ ns ∧ ns ≤ 16
    ∧ fieldAt img 16 4 % 4 = 0 ∧ 64 + 64 * ns ≤ fieldAt img 16 4 ∧ fieldAt img 16 4 + fieldAt img 20 4 ≤ bytes
    ∧ fieldAt img 20 4 % 4 = 0 ∧ zeroRange img 7 8 = true ∧ zeroRange img 24 64 = true
    ∧ ∀ i < ns, stageOk (fieldAt img 20 4) ((img.drop (64 + 64 * i)).take 64) = true

/-- The checks of R100 and R101 on a plan image of `n` plans for `model` that reads without error. -/
def PlanImage (e : Engine) (addr model n : Nat) : Prop :=
  let img := rd e addr (64 + 1024 * n)
  badRange e addr (64 + 1024 * n) = false ∧ byteAt img 4 = 4 ∧ fieldAt img 0 4 = 0x7A485054 ∧ fieldAt img 6 2 = n
    ∧ byteAt img 8 = model ∧ crcOk img 12 = true ∧ zeroRange img 9 12 = true ∧ zeroRange img 16 64 = true
    ∧ ∀ i < n, planOk i ((img.drop (64 + 1024 * i)).take 1024) = true
        ∧ (parsePlan ((img.drop (64 + 1024 * i)).take 1024)).rows ≤ 16384

/-- No capture holds commands back and no entry to SLEEP or deeper ends the work of strides (R359, R380). -/
def Strides (s : State) : Prop := Free s ∧ entryDeep s.eng = false

/-- Nothing is left of the current stride, nothing waits for the next one, and no request, Baton, RENEW, election or learn
window is under way. -/
def NothingDue (e : Engine) : Prop :=
  e.sched.agenda = [] ∧ e.sched.recs = [] ∧ e.sched.brk = 0 ∧ e.sched.ext = [] ∧ e.port.words = [] ∧ e.flt.due = []
    ∧ (∀ tc, (ten e tc).ring.accepted = []) ∧ e.rq.slots = [] ∧ e.rq.parked = [] ∧ e.kv.batons = []
    ∧ heatBusy e = false ∧ e.lead.renewing = false ∧ e.lead.elected = none ∧ e.cap.atOnce = false ∧ e.learn.win = none

/-- The duty `d` is the next of the stride, with `ds` behind it. -/
def Next (e : Engine) (d : Duty) (ds : List Duty) : Prop := e.sched.agenda = d :: ds

/-- The engine with the first duty taken off. -/
def taken (e : Engine) (ds : List Duty) : Engine := { e with sched := { e.sched with agenda := ds } }

/-- Port `q` has a drain credit, no block waits on it for its lanes, and its manifest queue is short enough that an intake
returns the credit (R27, R312, R318). -/
def DrainOpen (e : Engine) (q : Quad) : Prop :=
  tget 128 e.port.crd q.toNat ≠ 0 ∧ bufOf e q.toNat = [] ∧ (mpOf e q.toNat).queue.length < 4096

/-- The engine with every credit of drain port `q` back at the host. -/
def credited (q : Quad) (e : Engine) : Engine := { e with port := { e.port with crd := tdel e.port.crd q.toNat } }

/-- The engine after a word that is no logits block of PAIR 0 came in on port `q`: the next PAIR 1 block follows no block. -/
def seen (q : Quad) (e : Engine) : Engine :=
  { e with heat := { e.heat with cur := e.heat.cur.map (fun h => { h with prevBlk := tdel h.prevBlk q.toNat }) } }

/-- No row of the heat can be judged yet: each has a home quadrant that lacks a done marker. -/
def NoJudgement (h : Heat) : Prop := (∀ r ∈ h.rows, r.kind < 3) ∧ ∀ q < 4, allMarkers h q = false

/-- The units of manifest port `q`, sent and waiting. -/
def unitsOf (e : Engine) (q : Nat) : List MpUnit := (mpOf e q).sent ++ (mpOf e q).queue

/-- Reset numbers of the privileged window that are not 0 (R408, R409). -/
def resetNumbers : List (Nat × Nat) := [
  (0x000, 0x7A090402), (0x008, 0x8000400080408240), (0x010, 0x8004008020010040), (0x018, 0x8000040000200000),
  (0x020, 0x0000001480081110), (0x100, 0x20), (0x110, 0x03E80000), (0x158, 3), (0x408, 0xA), (0x480, 0x80000000),
  (0x500, 0x80000), (0x508, 0xFFFFFFFFFFFFFFFF), (0x510, 0xFFFF000000000000), (0x518, 0x1000), (0x640, 0x11111111)]
  ++ [(0x800, 0x10), (0x838, 0xC), (0x850, 0x400020), (0x908, 0xFFFFFFFFFFFFFFFF), (0x910, 0xFFFF), (0x938, 0x1000),
  (0xA00, 0xFF00), (0xA08, 0xE0), (0xA28, 0x10), (0xA38, 0x10000000), (0xA3C, 0x3C23D70A), (0xB08, 0x10000),
  (0xB10, 0xFFFFFFFFFFFFFFFF), (0xC00, 1), (0xD00, 0x2492), (0xD20, 0x18000000), (0xD30, 0x10104020), (0xD34, 0x64)]
  ++ [(0xE10, 8), (0xE30, 0x10FFFF), (0xE40, 0x3E8), (0xF00, 0x10064), (0xF04, 3)]

/-- Registers of the privileged window whose reset R409 marks X or retained: CP_STAMP_EPOCH, PWR_STATUS, PWR_ENTRY,
PWR_STEEP_BASE, DBG_HANG_DATA, FLT_LEAD, FLT_DATA. -/
def resetOpen : List Nat := [0x118, 0xD04, 0xD18, 0xD38, 0xE50, 0xF08, 0xF28]

/-- Reset numbers of a tenant page, apart from CP_TC_STATE and IDX_TDOMAIN, that are not 0 (R410). -/
def pageNumbers : List (Nat × Nat) := [(0x000, 6), (0x010, 6), (0x0A0, 0xA), (0x0A8, 6), (0x188, 8), (0x1C0, 6)]

/-- Where the engine keeps the draft state of a slot's request (R163). -/
def draftAt (e : Engine) (slot : Nat) : Nat := (reg e rSPR_DRAFT_BASE).toNat / 4096 * 4096 + 512 * slot

/-- A running request in a slot that a further token does not end, without a prompt array, a stop set or a deadline, whose
draft is not to be grown; no trace copies. -/
def Plain (e : Engine) (slot : Nat) (q : Req) (r : HRow) : Prop :=
  reqByUid e r.uid = some (some slot, q) ∧ reqAt e slot = some q ∧ q.e.st = .running ∧ q.d.stopHandle = 0
    ∧ q.d.promptAddr = 0 ∧ q.e.gen + 1 < q.d.maxTokens ∧ ctxOf q + 1 < 1048576 ∧ r.d.logprobEn = false ∧ r.dl = noDl
    ∧ r.ft = noDl ∧ r.watch = 0 ∧ r.issued = false ∧ r.logits = true ∧ specOn e = false

/-- `m` is a whole, well-formed relay message of `kind` from `src` with payload `pl`, sent on credits that the host holds,
and the relay is on (R321, R322). -/
def IsMsg (e : Engine) (m : List Byte) (kind : Nat) (src : U32) (pl : List Byte) : Prop :=
  relayOn e = true ∧ relayOk e m = true ∧ byteAt m 1 = kind ∧ BitVec.ofNat 32 (fieldAt m 4 4) = src
    ∧ (m.drop 32).take (fieldAt m 2 2) = pl ∧ flitsOf m ≤ e.relay.crd

/-- The stamp epoch a relay message carries. -/
def epochOf (m : List Byte) : U16 := BitVec.ofNat 16 (fieldAt m 24 2)

/-- The engine with the bytes of a received message counted. -/
def heard (m : List Byte) (e : Engine) : Engine := count 1 17 m.length e

/-- Classes whose containment, if any, waits for the next stride. -/
def Waits (c : FaultClass) : Prop := c ≠ .placement ∧ c ≠ .brewKat ∧ c ≠ .leadership ∧ c ≠ .strideRepeat

/-- A table's numbers rise: each stands once. -/
def Rising {α : Type} (t : Table α) : Prop := (tkeys t).Pairwise (· < ·)

end Sys2Proof.Certs

open Sys2Proof Sys2Proof.Machine Sys2Proof.Certs

/-- One step runs the command at the front of the queue on the queue's rest. -/
def Obligations.StepRunsTheFrontCommand : Prop :=
  ∀ (c : Instr) (rest : List Instr) (s : State),
    step { s with pending := c :: rest } = exec c { s with pending := rest }

/-- Every step answers a next state, and takes exactly the front command from the queue. An idle step is one TBCLK
nanosecond (the model's choice, log entry 3): while TBCLK runs the stamp counts and, with no interrupt message
waiting, nothing else changes. -/
def Obligations.EveryStepAnswersAndTakesOneCommand : Prop :=
  (∀ s : State, ∃ t, step s = .next t ∧ t.pending = s.pending.tail)
  ∧ (∀ s : State, s.pending = [] → s.eng.port.msgs = [] → s.eng.time.tbRun = true →
      step s = goes s { s.eng with time := { s.eng.time with stamp := s.eng.time.stamp + 1 } })

/-- What the kettle port answers to the commands that change nothing: NOP, and a CMD the table does not define, whose
RES 2 carries no DATA (deduced, log entry 91); and a frame reset makes the engine expect a new frame. WAKE with something to wake starts the wake; ARBITRATE
with an allowed mask resets the quadrants outside it and lets the next election succeed with the mask; both
answer RES 0. -/
def Obligations.KettleCommandsAct : Prop :=
  (∀ (s : State) (addr cmd : U8) (arg : U32),
      exec .kettleFrameReset s = goes s { s.eng with ket := { s.eng.ket with deaf := false } }
      ∧ (Hears s.eng addr →
          exec (.kettleNop addr 0 (frameCrc addr 0 0)) s
            = goes s { s.eng with ket := { s.eng.ket with reply := [0, crc8 [0]] } })
      ∧ (Hears s.eng addr → addr ≠ 0xFF#8 → 4 < cmd.toNat →
          exec (.kettleUndefinedCmd addr cmd arg (frameCrc addr cmd arg)) s
            = goes s { s.eng with ket := { s.eng.ket with reply := [2, crc8 [2]] } }))
  ∧ (∀ (s : State) (addr : U8) (m : U4), Hears s.eng addr →
      (inReset s.eng = false → wakePossible 3 s.eng = true →
        ∃ e, e = wakeEvent 3 s.eng
          ∧ exec (.kettleWake addr 0 (frameCrc addr 3 0)) s
            = goes s { e with ket := { e.ket with reply := [0, crc8 [0]] } })
      ∧ (addr ≠ 0xFF#8 → inService s.eng = true → s.eng.lead.pacer = none →
          m.getLsbD 0 = true → m ≠ 0b0001#4 → m ≠ 0b0101#4 →
        ∃ e, e = ((List.range 4).filter (fun q => !m.getLsbD q)).foldl
            (fun e q => quadReset (BitVec.ofNat 2 q) e) s.eng
          ∧ exec (.arbitrate addr (m.setWidth 32) (frameCrc addr 4 (m.setWidth 32))) s
            = goes s { e with lead := { e.lead with arbMask := some m },
                              ket := { e.ket with reply := [0, crc8 [0]] } }))

/-- STATUS outside reset: RES 0 and the 32 bits of R332, with the state code of PWR_STATE, 6 ENTERING and 7 WAKING among
them (R345). READ of a hang-snapshot word and of a fault-record word of a quadrant; of AREA 2 and past the fault records,
whose words the spec does not lay out, a free value (the model's choice, log entry 5). -/
def Obligations.KettleStatusAndReads : Prop :=
  (∀ (s : State) (addr : U8), Hears s.eng addr → inReset s.eng = false →
      ∃ d : List Byte,
        exec (.status addr 0 (frameCrc addr 1 0)) s
          = goes s { s.eng with ket := { s.eng.ket with reply := 0 :: d ++ [crc8 (0 :: d)] } }
        ∧ d = le 4 ((unitCode s.eng 4 % 8) * 2 ^ 29 + b2n (inHold s.eng) * 2 ^ 28 + b2n s.eng.pwr.placementBad * 2 ^ 27
            + popc (s.eng.lead.quorum.setWidth 64) 4 * 2 ^ 24 + s.eng.time.epoch.toNat))
  ∧ (∀ (s : State) (addr : U8) (q : Quad) (w : BitVec 13), Hears s.eng addr → addr ≠ 0xFF#8 →
      (∃ v : U64, v = hangWord (hangOf s.eng q.toNat) w.toNat
        ∧ exec (.read addr (BitVec.ofNat 32 (q.toNat * 2 ^ 16 + w.toNat * 8))
              (frameCrc addr 2 (BitVec.ofNat 32 (q.toNat * 2 ^ 16 + w.toNat * 8)))) s
            = goes s { s.eng with ket := { s.eng.ket with
                reply := 0 :: le 8 v.toNat ++ [crc8 (0 :: le 8 v.toNat)] } })
      ∧ (w.toNat < 3584 → ∃ v : U64, v = faultWord s.eng q.toNat (w.toNat / 8) (w.toNat % 8)
        ∧ exec (.read addr (BitVec.ofNat 32 (2 ^ 18 + q.toNat * 2 ^ 16 + w.toNat * 8))
              (frameCrc addr 2 (BitVec.ofNat 32 (2 ^ 18 + q.toNat * 2 ^ 16 + w.toNat * 8)))) s
            = goes s { s.eng with ket := { s.eng.ket with
                reply := 0 :: le 8 v.toNat ++ [crc8 (0 :: le 8 v.toNat)] } })
      ∧ (∀ a : Nat, a = 2 ∨ (a = 1 ∧ 3584 ≤ w.toNat) →
        ∃ v : U64, v = Config.unstated s.eng.free
          ∧ exec (.read addr (BitVec.ofNat 32 (a * 2 ^ 18 + q.toNat * 2 ^ 16 + w.toNat * 8))
                (frameCrc addr 2 (BitVec.ofNat 32 (a * 2 ^ 18 + q.toNat * 2 ^ 16 + w.toNat * 8)))) s
            = goes s { s.eng with free := s.eng.free + 1, ket := { s.eng.ket with
                reply := 0 :: le 8 v.toNat ++ [crc8 (0 :: le 8 v.toNat)] } }))

/-- A kettle frame with a wrong CRC is answered RES 1, and one that is right but for a non-zero reserved ARG bit
RES 2, without DATA (that only DONE carries DATA is deduced, log entry 91); neither changes anything but the reply. -/
def Obligations.KettleBadFramesOnlyReply : Prop :=
  ∀ (s : State) (addr crc : U8) (arg : U32), Hears s.eng addr →
    let res (r : Byte) := goes s { s.eng with ket := { s.eng.ket with reply := [r, crc8 [r]] } }
    (crc ≠ frameCrc addr 0 arg → exec (.kettleNop addr arg crc) s = res 1)
    ∧ (crc ≠ frameCrc addr 1 arg → exec (.status addr arg crc) s = res 1)
    ∧ (crc ≠ frameCrc addr 2 arg → exec (.read addr arg crc) s = res 1)
    ∧ (crc ≠ frameCrc addr 3 arg → exec (.kettleWake addr arg crc) s = res 1)
    ∧ (crc ≠ frameCrc addr 4 arg → exec (.arbitrate addr arg crc) s = res 1)
    ∧ (arg ≠ 0 → exec (.kettleNop addr arg (frameCrc addr 0 arg)) s = res 2)
    ∧ (arg ≠ 0 → exec (.status addr arg (frameCrc addr 1 arg)) s = res 2)
    ∧ (arg ≠ 0 → exec (.kettleWake addr arg (frameCrc addr 3 arg)) s = res 2)
    ∧ (addr ≠ 0xFF#8 → arg.toNat % 8 ≠ 0 ∨ 2 ^ 20 ≤ arg.toNat → exec (.read addr arg (frameCrc addr 2 arg)) s = res 2)
    ∧ (addr ≠ 0xFF#8 → 16 ≤ arg.toNat → exec (.arbitrate addr arg (frameCrc addr 4 arg)) s = res 2)

/-- RST_N low, TEST_MODE and a brown-out outside OFF hold the engine in reset, and an engine reset clears every
request, context, policy, plan, model, adapter, stream, index entry and counter; the leadership holds and the
fault number stay. Loss of VDD_A is loss of the retention supplies too, and no repair word is left. -/
def Obligations.ResetsClearTheEngine : Prop :=
  ∀ (s : State) (high instrRun : Bool) (straps : U8) (kat : Option U16) (bad : List BankAt),
    let held (t : State) : Prop := inReset t.eng = true ∧ Cleared t.eng ∧ t.eng.cnt = []
      ∧ t.eng.flt.recNo = s.eng.flt.recNo ∧ t.eng.lead.held = s.eng.lead.held
      ∧ t.eng.lead.leaseStr = s.eng.lead.leaseStr ∧ t.pending = s.pending
    (∃ t, exec (.rstN false true straps ⟨kat, bad⟩) s = .next t ∧ t.eng.pwr.holdRstN = true ∧ held t)
    ∧ (∃ t, exec (.rstN high false straps ⟨kat, bad⟩) s = .next t ∧ t.eng.pwr.holdRstN = true ∧ held t
        ∧ t.eng.pwr.retlostSticky = true ∧ t.eng.pwr.repair = [])
    ∧ (∃ t, exec (.testMode true instrRun) s = .next t ∧ t.eng.pwr.holdTest = true ∧ held t)
    ∧ (s.eng.pwr.eng ≠ 5 →
        ∃ t, exec .brownOut s = .next t ∧ t.eng.pwr.holdBor = true ∧ t.eng.pwr.bor = true ∧ held t)

/-- The engine leaves reset when the last thing that holds it lets go: with straps that present 0 to 3 once each the
wake stages of R360 run, before which it is not in service; with other straps it stays in reset with a placement fault.
When the stages are over the engine is in IDLE: BRW_KAT reads DONE and, after a known-answer check that passes, PASS; a
check that fails is a BREW_KAT fault of the vector that failed. TEST_MODE gives way with the straps of the last RST_N
(the model's choice, log entry 26). -/
def Obligations.ReleasesLeaveResetWhenPlaced : Prop :=
  (∀ (s : State) (straps : U8) (kat : Option U16) (bad : List BankAt), s.eng.pwr.placementBad = false →
    let p := s.eng.pwr
    let stages (k : Option U16) (p : PwrSt) : PwrSt := { p with
      eng := 4, lastKat := k, waking := [{ quad := none, origin := 6, stages := [0, 1, 2, 3] }] }
    (p.holdRstN = true → p.holdBor = false → p.holdTest = false →
      let p' := { p with holdRstN := false, failing := bad }
      exec (.rstN true true straps ⟨kat, bad⟩) s
        = if strapsOk straps then goes s { s.eng with pwr := stages kat p' }
          else goes s { s.eng with pwr := { p' with placementBad := true } })
    ∧ (p.holdRstN = false → p.holdBor = true → p.holdTest = false →
      let p' := { p with holdBor := false, coreOk := true, failing := bad }
      exec (.brownOutRecovery straps ⟨kat, bad⟩) s
        = if strapsOk straps then goes s { s.eng with pwr := stages kat p' }
          else goes s { s.eng with pwr := { p' with placementBad := true } })
    ∧ (p.holdRstN = false → p.holdBor = false → p.holdTest = true → p.testInstr = false →
      exec (.testMode false false) s
        = goes s { s.eng with pwr := stages p.lastKat { p with holdTest := false } }))
  ∧ (∀ s : State, inReset s.eng = false →
      s.eng.pwr.waking = [{ quad := none, origin := 6, stages := [3] }] → s.eng.pwr.vwarnNow = false →
      s.eng.pwr.retlostSticky = false → s.eng.pwr.failing = [] → s.eng.time.tbRun = true →
      let e := setRegF rBRW_KAT 1 1 1 { s.eng with pwr := { s.eng.pwr with eng := 2, waking := [] } }
      (s.eng.pwr.lastKat = none → exec .wakeStageReady s = goes s (cpRelease (setRegF rBRW_KAT 0 0 1 e)))
      ∧ (∀ i : U16, s.eng.pwr.lastKat = some i →
          exec .wakeStageReady s = goes s (cpRelease (fault .brewKat 0 .none hEngine hEngine (i.setWidth 64) e))))

/-- An engine that a placement fault holds in reset is left by every step in that reset, cleared, until an RST_N
assertion: no command of the queue that is not one brings anything back. -/
def Obligations.PlacementFaultHoldsTheEngineInReset : Prop :=
  ∀ s t : State, HeldByPlacement s → step s = .next t → HeldByPlacement t

/-- A supply warning outside reset starts an episode: VWARN, VWARN_NOW and the episode count; its end clears
VWARN_NOW and keeps the longest length below 0.66 V, the 10 us of recovery taken off. A lock loss stops TBCLK
and keeps the last stamp and stride; the restart begins a new epoch at stamp 0, drops every peer (R327) and writes a
discontinuity record with the last registered stride (R48, R364). Loss of the retention supplies is noted at once, and
with them the repair words go (R340, R414); a wrapper's repair word is kept, by bank, only in TEST_MODE, where it counts
as an instruction other than WS_BYPASS. An idle tile gates its own clock: no result and no register changes. -/
def Obligations.SuppliesClocksAndRetention : Prop :=
  (∀ s : State, inReset s.eng = false → s.eng.pwr.vwAgain = false →
      (s.eng.pwr.vwarnNow = false →
        exec .supplyWarning s = goes s (count 2 15 1 (bumpOpen rPWR_VWARN 63 32 1 { s.eng with pwr := { s.eng.pwr with
          vwarn := true, vwarnNow := true, vwStart := s.eng.time.stamp } })))
      ∧ (s.eng.pwr.vwarnNow = true → 10000 ≤ (s.eng.time.stamp - s.eng.pwr.vwStart).toNat →
        ∃ n, n = min ((s.eng.time.stamp - s.eng.pwr.vwStart).toNat - 10000) (2 ^ 32 - 1)
          ∧ exec .supplyWarningEnd s = goes s (setRegF rPWR_VWARN 31 0 (max (regN s.eng rPWR_VWARN 31 0) n)
              { s.eng with pwr := { s.eng.pwr with vwarnNow := false } })))
  ∧ (∀ s : State, inService s.eng = true →
      let t := s.eng.time
      (t.tbRun = true → exec .tbclkLockLoss s = goes s { s.eng with time := { t with
          tbRun := false, lockLost := true, lostStamp := t.stamp, retStride := t.num } })
      ∧ (t.tbRun = false → t.lockLost = true → exec .tbclkRestart s = goes s (peersDrop
          (discRec false true false t.epoch (t.epoch + 1) (if t.valid then t.num else t.retStride) t.lostStamp { s.eng with time := { t with
            tbRun := true, lockLost := false, epoch := t.epoch + 1, stamp := 0, winBad := true, strideStamp := 0 } }))))
  ∧ (∀ (s : State) (bank : BankAt) (word : U64),
      let p := s.eng.pwr
      exec .retlost s = goes s { s.eng with pwr := { p with retlostSticky := true, repair := [] } }
      ∧ (p.holdTest = false → exec (.repairWordLoad bank word) s = .next s)
      ∧ (p.holdTest = true →
          exec (.repairWordLoad bank word) s = goes s { s.eng with pwr := { p with
            testInstr := true, repair := p.repair.filter (fun x => x.1 != bank) ++ [(bank, word)] } }))
  ∧ (∀ (s : State) (tile : TileAt), exec (.tileIdleTimeout tile) s = .next s)

/-- The wake sources start a wake of a resting engine from the states R357 gives them, with the stages R358 gives
the state; 100 ns of WAKE_IN are needed. A wake goes through its stages in order; the last one, from IDLE,
puts the engine back where it came from with the packets that wait for it completed; that the state is then RUN when
the entry began there, a Steep load notwithstanding, is deduced (log entries 83 and 100). Of the accesses that wait,
sixteen are kept (deduced, log entry 106). -/
def Obligations.WakesStartAndRunTheirStages : Prop :=
  (∀ (s : State) (ns : Nat) (st : Nat), inReset s.eng = false → Resting s.eng st →
      let w (e : Engine) := { e with pwr := { e.pwr with waking := [{ quad := none, origin := st, stages := wakeStages st }] } }
      (100 ≤ ns → 1 ≤ st → st ≤ 4 → exec (.wakeIn ns) s = goes s (w s.eng))
      ∧ (ns < 100 → exec (.wakeIn ns) s = .next s)
      ∧ (st = 1 ∨ st = 2 → exec (.wake 1) s = goes s (answer 0 false (w s.eng)))
      ∧ (∀ a : CpAccess, st = 3 → exec (.sleepCpAccessWake a) s
          = goes s { w s.eng with pwr := { (w s.eng).pwr with
              held := if s.eng.pwr.held.length < 16 then s.eng.pwr.held ++ [a] else s.eng.pwr.held } }))
  ∧ (∀ (s : State) (x : Waking) (ws : List Waking) (st : Nat) (rest : List Nat), inReset s.eng = false →
      s.eng.pwr.waking = x :: ws → x.stages = st :: rest → (st = 3 → s.eng.pwr.vwarnNow = false) →
      (rest ≠ [] → exec .wakeStageReady s = goes s (cpRelease { s.eng with pwr := { s.eng.pwr with
          waking := { x with stages := rest } :: ws } }))
      ∧ (rest = [] → x.quad = none → x.origin = 2 → s.eng.pwr.retlostSticky = false →
        exec .wakeStageReady s = goes s (cpRelease (payOwed 4 { s.eng with pwr := { s.eng.pwr with
          waking := ws, back := tdel s.eng.pwr.back 4, quads := [],
          eng := (tget? s.eng.pwr.back 4).getD 2 } }))))

/-- POWER_STATE outside the refusals of R348 answers OK and starts what R346 and R352 say: STOP and the deeper
states wait for their steps; STATE 0 returns a stopped engine or quadrant to RUN, its wake done before (R346), and
for a quadrant in a deeper state it waits for the wake that another source starts (R357; deduced, log entry 84). -/
def Obligations.PowerStatePacketsStartTransitions : Prop :=
  ∀ (s : State) (h : Hdr) (st scope quad : U8), Free s → s.eng.pwr.stopping = [] → s.eng.pwr.entry = [] →
    s.eng.pwr.waking = [] → scope.toNat ≤ 1 →
    (scope = 1 → inHold s.eng = true ∧ 1 ≤ quad.toNat ∧ quad.toNat ≤ 3) →
    let u := unitOf (named scope quad)
    let p := s.eng.pwr
    (unitState s.eng u = 0 → exec (.powerStateStop h scope quad) s = answers s h 0x0D 0 { s.eng with pwr := { p with
        stopping := [{ quad := named scope quad, h := some h, wakeSeen := false }] } })
    ∧ (scope = 0 → p.quads = [] → p.eng = 1 →
        exec (.powerStateRun h scope quad) s = answers s h 0x0D 0 { s.eng with pwr := { p with
          eng := 0, back := tdel p.back 4, ungated := [], owed := p.owed ++ [(5, h)] } })
    ∧ (scope = 1 → unitState s.eng u = 1 →
        exec (.powerStateRun h scope quad) s = answers s h 0x0D 0 { s.eng with pwr := { p with
          quads := tset p.quads u 0, back := tdel p.back u, ungated := p.ungated.filter (· != u),
          owed := p.owed ++ [(5, h)] } })
    ∧ (scope = 1 → 2 ≤ unitState s.eng u →
        exec (.powerStateRun h scope quad) s = answers s h 0x0D 0 { s.eng with pwr := { p with
          back := tset p.back u 0, owed := p.owed ++ [(u, h)] } })
    ∧ (2 ≤ st.toNat → st.toNat ≤ 5 → unitState s.eng 4 ≤ 1 → unitState s.eng u ≠ st.toNat →
        (p.quads = [] ∨ scope = 1) →
        (3 ≤ st.toNat → regB s.eng rHEAT_CTRL 0 = false ∧ heatBusy s.eng = false) →
        (4 ≤ st.toNat → s.eng.rq.slots = [] ∧ s.eng.rq.parked = [] ∧ s.eng.learn.owner = none
          ∧ ∀ l < 64, (laneOf s.eng l).st = .free) →
        exec (.powerStateEntry h st scope quad) s = answers s h 0x0D 0 { s.eng with pwr := { p with
          entry := [{ quad := named scope quad, h := some h, target := st.toNat, origin := unitState s.eng u, step := 0,
                      wakeSeen := false }] } })

/-- The units STOP does not keep are gated once the last heat with rows has issued its records, an empty one notwithstanding
(R347): the engine is in STOP, the packet that asked for it completes, and an accepted packet that asks for RUN meanwhile
starts the wake (R346; its moment is deduced, log entry 84). An entry runs its steps in order: an inner step is counted, the one step
of IDLE enters it and notes PWR_LAST, and a wake event seen abandons the entry at the abort point behind the
step; a tile that does not quiesce in the first step refuses the entry, with its address in PWR_REFUSER. -/
def Obligations.StopAndEntryStepsRun : Prop :=
  (∀ (s : State) (x : Stopping) (xs : List Stopping), inService s.eng = true → s.eng.pwr.stopping = x :: xs →
      x.quad = none → x.wakeSeen = false → heatBusy s.eng = false ∨ curEmpty s.eng = true →
      ∃ e e', e = (if heatBusy s.eng then s.eng else heatFinish s.eng)
        ∧ e' = finishH x.h { e with pwr := { e.pwr with
            stopping := xs, back := tset e.pwr.back 4 0, ungated := e.pwr.ungated.filter (· != 4), eng := 1, quads := [] } }
        ∧ exec .stopGating s = goes s (if runAsked 4 e' then runWake 4 e' else e'))
  ∧ (∀ (s : State) (x : Entry) (xs : List Entry) (tile : TileAt), inService s.eng = true → s.eng.pwr.entry = x :: xs →
      x.quad = none → x.step = 0 →
      let put (es : List Entry) (e : Engine) : Engine := { e with pwr := { e.pwr with entry := es } }
      (x.wakeSeen = false → 3 ≤ x.target →
        exec .entryStepComplete s = goes s (cpRelease (put ({ x with step := 1 } :: xs) s.eng)))
      ∧ (x.wakeSeen = true →
        exec .entryStepComplete s
          = goes s (cpRelease (finishH x.h (setLast x.target 2 1 (bumpSat rPWR_ENTRY 31 16 1 (put xs s.eng))))))
      ∧ (x.wakeSeen = false → x.target = 2 →
        ∃ e, e = setLast 2 0 0 (bumpSat rPWR_ENTRY 63 48 1 (put xs s.eng))
          ∧ exec .entryStepComplete s = goes s (cpRelease { e with pwr := { e.pwr with
              back := tset e.pwr.back 4 x.origin,
              owed := match x.h with
                | some h => e.pwr.owed ++ [(4, h)]
                | none => e.pwr.owed,
              eng := 2, quads := [] } }))
      ∧ (tileActive tile = true → exec (.quiesceTimeout [tile]) s
          = goes s (cpRelease (finishH x.h (setReg rPWR_REFUSER (hOf tile) (setLast x.target 1 0
              (bumpSat rPWR_ENTRY 47 32 1 (put xs s.eng))))))))

/-- A Steep image loads from IDLE: a write of PWR_STEEP_CTRL with LOAD set starts the load of the LEN4K units it
names, by reads of 64 bytes, and a length outside 1 to 32 fails at once; while reads are out nothing is judged; a
verified image puts the engine in RUN, any other, or one with a read error, leaves it IDLE and FAILED. -/
def Obligations.SteepImageLoadsAndVerifies : Prop :=
  ∀ (s : State) (val : U32), PortOpen s →
    (Resting s.eng 2 → val.getLsbD 31 = true →
      ∃ t, exec (.steepLoad val) s = .next t ∧ t.pending = s.pending
        ∧ t.eng.pwr = { s.eng.pwr with
            steep := if 1 ≤ val.toNat % 64 ∧ val.toNat % 64 ≤ 32 then 1 else 3,
            steepLen := val.toNat % 64, steepMatch := false, steepErr := false,
            steepReads := if 1 ≤ val.toNat % 64 ∧ val.toNat % 64 ≤ 32 then 64 * (val.toNat % 64) else 0 }
        ∧ regN t.eng rPWR_STEEP_CTRL 5 0 = val.toNat % 64
        ∧ (∀ p, p ≠ rPWR_STEEP_CTRL → reg t.eng p = reg s.eng p)
        ∧ { t.eng with pwr := s.eng.pwr, regs := s.eng.regs, port := s.eng.port } = s.eng)
    ∧ (inService s.eng = true → s.eng.pwr.steepReads ≠ 0 → exec .steepVerifyComplete s = .next s)
    ∧ (inService s.eng = true → s.eng.pwr.steep = 1 → s.eng.pwr.steepReads = 0 → s.eng.pwr.steepMatch = false →
        let a := (reg s.eng rPWR_STEEP_BASE).toNat / 4096 * 4096
        let n := 4096 * s.eng.pwr.steepLen
        exec .steepVerifyComplete s
          = if s.eng.pwr.steepErr = false ∧ Config.steepVerifies (rd s.eng a n) = true then
              goes s { s.eng with pwr := { s.eng.pwr with
                steep := 2, digest := Config.steepDigest (rd s.eng a n), eng := 0, quads := [] } }
            else goes s { s.eng with pwr := { s.eng.pwr with steep := 3 } })

/-- Writes of registers that hold fields only. The fields the view may write take the written bits, a W1C field
clears where 1 is written, every other bit keeps its value; a write that its guard forbids leaves the register
and counts in CP_GUARD_ERR with the offset; a register without writable fields is left as it was. By 32 bits
and, of a 64-bit register, whole, in the privileged window; by 32 bits, from either view, in the page of a
tenant. -/
def Obligations.RegisterWriteStoresWritableFields : Prop :=
  ∀ (s : State) (off : Offset) (r : RegInfo) (val : U64) (priv : Bool), PortOpen s → infoAt off.toNat = some r →
    let o := off.toNat
    let new (v : U64) := stored r priv (reg s.eng o) v
    let ignored (e : Engine) := goes s (answer 0 false
      (setRegF rCP_GUARD_ERR 20 0 o (bumpOpen rCP_GUARD_ERR 63 32 1 e)))
    (o < 0x1000 → priv = true → writable r priv ≠ 0 → o ∉ actsOnWrite → ¬ (0x200 ≤ o ∧ o < 0x400 ∧ o % 16 = 12) →
      (o % 4 = 0 → r.wide = false →
        exec (.registerWrite off false val priv) s
          = if guardPriv o (reg s.eng o) (new (val &&& 0xFFFFFFFF)) s.eng then ignored s.eng
            else goes s (answer 0 false (setReg o (new (val &&& 0xFFFFFFFF)) s.eng)))
      ∧ (o % 8 = 0 → r.wide = true →
        let e := { s.eng with wrLatch := tdel s.eng.wrLatch o }
        exec (.registerWrite off true val priv) s
          = if guardPriv o (reg s.eng o) (new val) s.eng then ignored e
            else goes s (answer 0 false (setReg o (new val) e))))
    ∧ (0x100000 ≤ o → o % 4 = 0 → r.wide = false → o % 0x1000 ∉ [0x8, 0x1C, 0x20, 0x1C0] →
        ¬ (0x100 ≤ o % 0x1000 ∧ o % 0x1000 < 0x180 ∧ o % 16 = 12) →
      exec (.registerWrite off false val priv) s
        = if writable r priv = 0 then goes s (answer 0 false s.eng)
          else if priv && guardPage ((o - 0x100000) / 0x1000) (o % 0x1000) (reg s.eng o) (new (val &&& 0xFFFFFFFF)) s.eng then
            ignored s.eng
          else goes s (answer 0 false (setReg o (new (val &&& 0xFFFFFFFF)) s.eng)))

/-- A 32-bit privileged read of a stored register that clears nothing returns its value, write-only bits zero; a
read of an RC register returns its value and clears exactly its RC fields; CP_IPREV, which nothing writes,
reads 0x7A090402. The read of the low half of a 64-bit register that software does not write latches its high
half: CP_SPLIT's low half returns STAMP[31:0] and a later read of the high half returns STAMP[63:32] of that
moment. Accesses the port turns away: a misaligned one answers an error and counts in CPALIGN and nowhere else (deduced,
log entry 58); one of the tenant view below 0x10000 is ignored, reads as zero and counts in CP_VIEW_ERR. An answer that
carries no data carries 0 (the model's choice, log entry 59). -/
def Obligations.RegisterReadsAndBadAccesses : Prop :=
  (∀ (s : State) (off : Offset) (r : RegInfo), PortOpen s → off.toNat % 4 = 0 →
      infoAt off.toNat = some r → r.wide = false → off.toNat < 0x1000 → tget? privValues off.toNat = none →
      let v := reg s.eng off.toNat &&& ~~~BitVec.ofNat 64 r.wo &&& 0xFFFFFFFF
      (r.rc = 0 → exec (.registerRead off false true) s = goes s (answer v false s.eng))
      ∧ (r.rc ≠ 0 → exec (.rcRead off false true) s
          = goes s (answer v false (setReg off.toNat (reg s.eng off.toNat &&& ~~~BitVec.ofNat 64 r.rc) s.eng)))
      ∧ (off = 0 → tget? s.eng.regs 0 = none → exec (.registerRead off false true) s = goes s (answer 0x7A090402 false s.eng)))
  ∧ (∀ s : State, PortOpen s →
      let low := s.eng.time.stamp &&& 0xFFFFFFFF
      exec (.lowHalfReadLatch (BitVec.ofNat 21 rCP_SPLIT) true) s
        = goes s (answer low false { s.eng with
            hiLatch := tset s.eng.hiLatch rCP_SPLIT ((s.eng.time.stamp >>> 32).setWidth 32) })
      ∧ (∀ h : U32, tget? s.eng.hiLatch rCP_SPLIT = some h →
          exec (.registerRead (BitVec.ofNat 21 (rCP_SPLIT + 4)) false true) s
            = goes s (answer (h.setWidth 64) false s.eng)))
  ∧ (∀ (s : State) (off : Offset) (val : U64) (priv : Bool), PortOpen s →
      (off.toNat % 4 ≠ 0 → exec (.registerWrite off false val priv) s
        = goes s (answer 0 true (bumpSat rCP_PORT_ERR 55 48 1 s.eng)))
      ∧ (off.toNat % 8 ≠ 0 → exec (.registerWrite off true val priv) s
        = goes s (answer 0 true (bumpSat rCP_PORT_ERR 55 48 1 s.eng)))
      ∧ (off.toNat % 8 = 0 → off.toNat < 0x10000 → ∀ w, exec (.registerWrite off w val false) s
        = goes s (answer 0 false (bumpOpen rCP_VIEW_ERR 31 0 1 s.eng)))
      ∧ (off.toNat % 8 = 0 → off.toNat < 0x10000 → ∀ w, exec (.registerRead off w false) s
        = goes s (answer 0 false (bumpOpen rCP_VIEW_ERR 31 0 1 s.eng))))

/-- A doorbell that keeps TAIL - HEAD within the ring and does not move TAIL backwards sets CP_CRING_TAIL. Any
other is refused: CP_CRING_TAIL is unchanged, DB_ERR is set and a DOORBELL_ERR notice, with a RESULT the spec
does not name (free value, log entry 5), is queued on the tenant's status ring. -/
def Obligations.DoorbellMovesTheTail : Prop :=
  ∀ (s : State) (tc : U8) (tail : U32), PortOpen s →
    let c := tc.toNat
    let head : U32 := (reg s.eng (rCP_CRING_HEAD c)).setWidth 32
    let old : U32 := (reg s.eng (rCP_CRING_TAIL c)).setWidth 32
    let n := 2 ^ regN s.eng (rCP_CRING_BASE c) 4 0
    ((tail - head).toNat ≤ n → (old - head).toNat ≤ (tail - head).toNat →
      exec (.doorbell tc tail) s = goes s (answer 0 false (setReg (rCP_CRING_TAIL c) (tail.setWidth 64) s.eng)))
    ∧ (n < (tail - head).toNat ∨ (tail - head).toNat < (old - head).toNat →
      ∃ e result, e = notice c 0x40 result c (setRegF (rCP_RING_STAT c) 5 5 1 s.eng)
        ∧ exec (.doorbell tc tail) s = goes s (answer 0 false e)
        ∧ reg e (rCP_CRING_TAIL c) = reg s.eng (rCP_CRING_TAIL c) ∧ regB e (rCP_RING_STAT c) 5 = true)

/-- Enabling the rings of an open context with LOG2N of 6 to 16: HEAD is set to TAIL, and on the status ring TAIL
to HEAD with PHASE 1; a context that is not open, or another LOG2N, leaves the rings as they were (that only a rise of an
enable is ignored is deduced, log entry 61). A write of CP_SRING_HEAD stores it and lets waiting entries into the space it
makes. A write of a vector's control word stores EN and MASK and keeps PEND (deduced, log entry 63); a vector enabled,
unmasked and pending then writes its message and clears PEND. -/
def Obligations.RingsStartDrainAndInterrupt : Prop :=
  (∀ (s : State) (tc : U8), PortOpen s → reg s.eng (rCP_RING_CTRL tc.toNat) = 0 →
      let c := tc.toNat
      let sized := ringLogOk (regN s.eng (rCP_CRING_BASE c) 4 0) && ringLogOk (regN s.eng (rCP_SRING_BASE c) 4 0)
      (isOpen s.eng c = true → sized = true →
        ∃ e, e = setReg (rCP_CRING_HEAD c) (reg s.eng (rCP_CRING_TAIL c)) (setReg (rCP_RING_CTRL c) 3 s.eng)
          ∧ exec (.ringEnable tc 3 true) s
            = goes s (answer 0 false (reclaimOrders (srFlush c (modRing c (fun r => { r with inflight := [], phase := true })
                (setReg (rCP_SRING_TAIL c) (reg s.eng (rCP_SRING_HEAD c)) e))))))
      ∧ (isOpen s.eng c = false ∨ sized = false → exec (.ringEnable tc 3 true) s = goes s (answer 0 false s.eng)))
  ∧ (∀ (s : State) (tc : U8) (head : U32), PortOpen s →
      exec (.statusRingHeadWrite tc head) s
        = goes s (answer 0 false (reclaimOrders
            (srFlush tc.toNat (setReg (rCP_SRING_HEAD tc.toNat) (head.setWidth 64) s.eng)))))
  ∧ (∀ (s : State) (v : BitVec 5) (tc : U8) (tv : U3), PortOpen s → s.eng.port.msgs.length < 256 →
      ∀ (x : VecId), x = .pv v ∨ x = .tv tc tv →
      let c := reg s.eng (vecCtrl x)
      (bit c 1 = true → c.toNat < 2 ^ 32 →
        ∃ t, exec (.vectorCtrlWrite x 0x80000000 true) s = .next t ∧ t.pending = s.pending
          ∧ t.eng.port.msgs = s.eng.port.msgs
              ++ [{ addr := reg s.eng (vecBase x) &&& ~~~3#64, data := (reg s.eng (vecBase x + 8)).setWidth 32 }]
          ∧ reg t.eng (vecCtrl x) = (c ||| 0x80000000#64) &&& ~~~3#64
          ∧ (∀ p, p ≠ vecCtrl x → reg t.eng p = reg s.eng p)
          ∧ { t.eng with regs := s.eng.regs, port := s.eng.port } = s.eng)
      ∧ (exec (.vectorCtrlWrite x 1 true) s
          = goes s (answer 0 false (setReg (vecCtrl x) ((c &&& ~~~0x80000001#64) ||| 1) s.eng))))

/-- Writes of 1 clear STRIDE and FAULT of FLT_HOLD; KAT, QUAD and NOLEAD stay. DBG_HANG_CTRL.TAKE makes every
quadrant take a snapshot with CAUSE 3; TMO takes the written field. LANE_ADV_SEL: the advice names the COUNT
free lanes of the last boundary with the highest score for the tenant, ties to the lower lane, and nothing but
the advice and the selection changes. BRW_GRANT_BASE and VAR_XSET_BASE: setting EN with the BASE already
written writes the table entry of every open stream, of every defined set; nothing else happens but the store
of the register. IDX_CTRL.EN may rise only while HEAT_CTRL.EN is 0, no request is live and no MOVE or FETCH
order is out, and it clears the index: no node is left and every node's block is free again. -/
def Obligations.WritesThatAct : Prop :=
  (∀ (s : State) (val : U32), PortOpen s →
      exec (.holdCauseClear val) s = goes s (answer 0 false { s.eng with flt := { s.eng.flt with
        stride := s.eng.flt.stride && !val.getLsbD 4, fault := s.eng.flt.fault && !val.getLsbD 3 } }))
  ∧ (∀ (s : State) (tmo : U16), PortOpen s →
      ∃ e, e = setReg rDBG_HANG_CTRL ((reg s.eng rDBG_HANG_CTRL &&& ~~~0xFFFF#64) ||| tmo.setWidth 64) s.eng
        ∧ exec (.hangTake (0x80000000#32 ||| tmo.setWidth 32)) s
          = goes s (answer 0 false (hangSnap 3 3 (hangSnap 3 2 (hangSnap 3 1 (hangSnap 3 0 e))))))
  ∧ (∀ (s : State) (tc : U8) (count : BitVec 7), PortOpen s →
      ∃ t, exec (.laneAdvice (BitVec.ofNat 32 (count.toNat * 256 + tc.toNat))) s = .next t ∧ t.pending = s.pending
        ∧ t.eng.lanes = { s.eng.lanes with adv := setBits (adviseLanes s.eng.lanes.bFree
            ((s.eng.lanes.bReqs.filter (fun p => p.1 == tc.toNat)).map (·.2)) count.toNat) }
        ∧ (∀ p, p ≠ rLANE_ADV_SEL → reg t.eng p = reg s.eng p)
        ∧ { t.eng with lanes := s.eng.lanes, regs := s.eng.regs, port := s.eng.port } = s.eng)
  ∧ (∀ s : State, PortOpen s →
      (grantOn s.eng = false →
        exec (.grantEnable (reg s.eng rBRW_GRANT_BASE ||| 1)) s
          = goes s (answer 0 false ((tenants s.eng).foldl (fun e tc => grantTenant tc e)
              { setReg rBRW_GRANT_BASE (reg s.eng rBRW_GRANT_BASE ||| 1) s.eng with
                wrLatch := tdel s.eng.wrLatch rBRW_GRANT_BASE })))
      ∧ (xsetOn s.eng = false →
        exec (.xsetEnable (reg s.eng rVAR_XSET_BASE ||| 1)) s
          = goes s (answer 0 false ((s.eng.xsets.filter (fun x => x.2.owner.isSome)).foldl (fun e x => xsetWrite x.1 x.2 e)
              { setReg rVAR_XSET_BASE (reg s.eng rVAR_XSET_BASE ||| 1) s.eng with
                wrLatch := tdel s.eng.wrLatch rVAR_XSET_BASE }))))
  ∧ (∀ s : State, PortOpen s → regB s.eng rIDX_CTRL 31 = false → (reg s.eng rIDX_CTRL).toNat < 32 →
      (quiet s.eng = true → movesOut s.eng = false →
        ∃ t, exec (.indexEnable (((reg s.eng rIDX_CTRL).setWidth 32) ||| 0x80000000)) s = .next t
          ∧ t.eng = answer 0 false (idxClear (setReg rIDX_CTRL (reg s.eng rIDX_CTRL ||| 0x80000000) s.eng))
          ∧ t.eng.kv.nodes = [] ∧ t.pending = s.pending)
      ∧ (quiet s.eng = false ∨ movesOut s.eng = true →
        exec (.indexEnable (((reg s.eng rIDX_CTRL).setWidth 32) ||| 0x80000000)) s
          = goes s (answer 0 false (setRegF rCP_GUARD_ERR 20 0 rIDX_CTRL (bumpOpen rCP_GUARD_ERR 63 32 1 s.eng)))))

/-- CP_RELAY_CFG: setting EN stores the configuration; clearing it sends DEPART to every present peer first and drops none
of them (deduced, log entry 64).
IDX_BQ_HEAD stores the mover's head and lets waiting orders into the queue; a report in IDX_BDONE of an order
that was issued waits for the next stride as an external event, and a report of any other ORDER counts in
STRAY. A manifest-port credit lets a beat of the waiting units go. -/
def Obligations.RelayBatonQueueAndManifestWrites : Prop :=
  (∀ s : State, PortOpen s →
      let c := reg s.eng rCP_RELAY_CFG
      (bit c 31 = false → exec (.relayEnable (c ||| 0x80000000)) s
        = goes s (answer 0 false { setReg rCP_RELAY_CFG (c ||| 0x80000000) s.eng with
            wrLatch := tdel s.eng.wrLatch rCP_RELAY_CFG }))
      ∧ (bit c 31 = true →
        ∃ e, e = s.eng.relay.peers.foldl (fun e p => relaySend 5 p.2.id [] e)
            { s.eng with wrLatch := tdel s.eng.wrLatch rCP_RELAY_CFG }
          ∧ exec (.relayEnable (c &&& ~~~0x80000000#64)) s
            = goes s (answer 0 false (setReg rCP_RELAY_CFG (c &&& ~~~0x80000000#64) e))))
  ∧ (∀ (s : State) (head num : U32) (fail : Bool), PortOpen s →
      let v : U64 := BitVec.ofNat 64 (b2n fail * 2 ^ 32 + num.toNat)
      let known := (tget? s.eng.kv.orders num.toNat).isSome && !s.eng.kv.ordWait.contains num.toNat
        && !s.eng.sched.ext.any (fun x => match x.2 with
          | .order n _ => n == num
          | _ => false)
      let e := { s.eng with wrLatch := tdel s.eng.wrLatch rIDX_BDONE }
      exec (.bqHeadWrite head) s = goes s (answer 0 false (ordFlush (setReg rIDX_BQ_HEAD (head.setWidth 64) s.eng)))
      ∧ (known = true → exec (.orderReport v) s
          = goes s (answer 0 false { e with sched := { e.sched with ext := e.sched.ext ++ [(e.time.num, .order num fail)] } }))
      ∧ (known = false → exec (.orderReport v) s = goes s (answer 0 false (bumpSat rIDX_BSTAT 31 16 1 e))))
  ∧ (∀ (s : State) (q : Quad), Free s → (mpOf s.eng q.toNat).crd = 0 → bufOf s.eng q.toNat = [] →
      ∃ t, exec (.manifestPortCredit q) s = .next t ∧ t.pending = s.pending
        ∧ (mpOf t.eng q.toNat).sent = (mpOf s.eng q.toNat).sent ++ (mpOf s.eng q.toNat).queue.take 16
        ∧ (mpOf t.eng q.toNat).queue = (mpOf s.eng q.toNat).queue.drop 16
        ∧ (∀ p, p ≠ q.toNat → mpOf t.eng p = mpOf s.eng p)
        ∧ { t.eng with port := s.eng.port } = s.eng)

/-- NOP does nothing: the packet is answered OK with RESULT 0. Its reply, as R60 lays it out, goes to the next slot of its ring while the ring has space, its write is
issued through the ring's port, and every other byte of memory and everything but the ring and that write is
unchanged; a ring without space keeps the reply waiting and nothing is written. -/
def Obligations.NopWritesItsReply : Prop :=
  (∀ (s : State) (h : Hdr), Free s → exec (.nop h) s = answers s h 0x01 0 s.eng)
  ∧ ∀ (s : State) (h : Hdr), Free s → Quiet s.eng →
    let r := h.ring.toNat
    let ring := (ten s.eng r).ring
    let size := srSize s.eng r
    let slot := (srNext s.eng r).toNat % size
    let a := (reg s.eng (rCP_SRING_BASE r)).toNat / 4096 * 4096 + 32 * slot
    ring.waiting = [] → ring.lostEv = 0 → ring.accepted.length < 256 →
    (srSpace s.eng r = true →
      ∃ t, exec (.nop h) s = .next t ∧ t.pending = s.pending
        ∧ t.eng.mem = memWrite s.eng.mem a ([0, 0x01, 0, if ring.phase then 1 else 0] ++ le 4 h.tag.toNat
            ++ le 6 s.eng.time.num.toNat ++ le 2 (h.ridx.toNat % 65536) ++ le 6 0 ++ [h.target, 0]
            ++ le 8 s.eng.time.stamp.toNat)
        ∧ (∀ x, x < a ∨ a + 32 ≤ x → memGet t.eng.mem x = memGet s.eng.mem x)
        ∧ t.eng.ten = (modRing r (fun _ => { ring with
            phase := if slot + 1 = size then !ring.phase else ring.phase,
            inflight := ring.inflight ++ [{ idx := srNext s.eng r, seen := false, vec := hdrVec h }] }) s.eng).ten
        ∧ t.eng.port = (memIssue {
            port := BitVec.ofNat 2 (r % 4), write := true, addr := a / 64 * 64,
            who := .status r (srNext s.eng r) } s.eng).port
        ∧ { t.eng with mem := s.eng.mem, ten := s.eng.ten, port := s.eng.port } = s.eng)
    ∧ (srSpace s.eng r = false →
      exec (.nop h) s = goes s (modRing r (fun _ => { ring with waiting := [{
        kind := 0, status := 0, opcode := 0x01, tag := h.tag, ridx := h.ridx.setWidth 16, estr := s.eng.time.num,
        result := 0, target := h.target, raw := [], vec := hdrVec h }] }) s.eng))

/-- A packet that acts on a tenant context is answered WRONG_STATE when the context is FREE and TORN when it is
torn down, and has no effect but its reply. -/
def Obligations.PacketsOfAbsentContextsAreRefused : Prop :=
  ∀ (s : State) (h : Hdr) (a b : U64) (r n : U32) (x : U16) (k : U128), Free s →
    let st := (ten s.eng h.target.toNat).st
    let no (op : Nat) : Host.Outcome State Fault Refusal :=
      goes s (settled (reply h op (if st = .free then 0x24 else 0x32) 0 s.eng))
    (st = .free ∨ st = .torn) →
    exec (.tenantQos h a) s = no 0x07 ∧ exec (.laneGrant h a) s = no 0x08 ∧ exec (.laneReclaim h a r) s = no 0x09
    ∧ exec (.contextSave h a r) s = no 0x0A ∧ exec (.contextRestore h a r) s = no 0x0B
    ∧ exec (.admitReq h r a) s = no 0x10 ∧ exec (.pause h r n 0) s = no 0x11 ∧ exec (.resume h r) s = no 0x12
    ∧ exec (.cancel h r) s = no 0x13 ∧ exec (.setBudget h r n b) s = no 0x14 ∧ exec (.handoff h r n) s = no 0x15
    ∧ exec (.regionPublish h a r 0 n) s = no 0x16 ∧ exec (.adapterRegister h a 0 x x x) s = no 0x22
    ∧ exec (.adapterRetire h 0 x x 0) s = no 0x23 ∧ exec (.expertSet h a 0 x) s = no 0x24
    ∧ exec (.turnToLearn h 0) s = no 0x30 ∧ exec (.turnToGenerate h x) s = no 0x31
    ∧ exec (.learnConfig h r x a) s = no 0x32 ∧ exec (.optStepDone h x) s = no 0x33
    ∧ exec (.stalenessCap h x) s = no 0x34 ∧ exec (.seedSet h k) s = no 0x40 ∧ exec (.streamOpen h 0 r) s = no 0x41
    ∧ exec (.streamClose h r) s = no 0x42 ∧ exec (.counterLatch h x 0) s = no 0x50 ∧ exec (.watchSet h r n) s = no 0x51

/-- CAPTURE with every quadrant in RUN or STOP and none in progress waits for its stride; in HOLD it freezes the
engine at once and replies with the capture stride. While a photo-finish capture is busy a packet waits in it:
nothing else changes. The markers of a photo-finish capture: each is entered once and the eighth stamps the
cut; the release, with the eight there and nothing held, writes the image, ends the capture and completes its
packet; before the eighth it does nothing. -/
def Obligations.CapturesHoldAndFinish : Prop :=
  (∀ (s : State) (h : Hdr) (addr : U64), Free s → s.eng.cap.asked = none → (∀ q < 4, unitState s.eng q < 2) →
      s.eng.pwr.owed = [] → s.eng.lanes.reclaims = [] →
      (inHold s.eng = false →
        exec (.capture h addr) s = goes s { s.eng with cap := { s.eng.cap with asked := some (h, addr, 0), atOnce := false } })
      ∧ (inHold s.eng = true →
        ∃ e, e = reply h 0x0E 0 s.eng.time.num.toNat { s.eng with
            cap := { s.eng.cap with asked := some (h, addr, 0), atOnce := true } }
          ∧ exec (.capture h addr) s = goes s { e with cap := {
              asked := none, atOnce := false, busy := true, valid := false, cstr := e.time.num, addr := addr.toNat,
              h := some h, stamp := e.time.stamp, cutStamp := 0, markers := [], held := [] } }))
  ∧ (∀ (s : State) (h : Hdr) (n : U32) (k : U128) (q : Quad), inService s.eng = true → s.eng.cap.busy = true →
      ∀ c ∈ [Instr.nop h, .setStrideRate h n, .seedSet h k, .resume h n, .cancel h n, .manifestPortCredit q],
        exec c s = goes s { s.eng with cap := { s.eng.cap with held := s.eng.cap.held ++ [c] } })
  ∧ (∀ (s : State) (q : Quad) (up : Bool), inService s.eng = true → s.eng.cap.busy = true →
      let c := s.eng.cap
      ((q, up) ∉ c.markers →
        exec (.freezeMarker q up) s = goes s { s.eng with cap := { c with
          markers := c.markers ++ [(q, up)],
          cutStamp := if c.markers.length + 1 = 8 then s.eng.time.stamp else c.cutStamp } })
      ∧ ((q, up) ∈ c.markers → exec (.freezeMarker q up) s = .next s)
      ∧ (c.markers.length ≠ 8 → exec .captureRelease s = .next s)
      ∧ (c.markers.length = 8 → c.held = [] → s.eng.sched.agenda = [] →
        ∃ e, e = capWrite s.eng ∧ exec .captureRelease s = goes s e ∧ e.cap.busy = false ∧ e.cap.valid = true
          ∧ e.cap.markers = [] ∧ e.cap.cstr = c.cstr))

/-- SET_STRIDE_RATE of at least 0x0010_0000 sets CP_NSPS. SEED_SET with no request and no open stream sets the tenant's seed and restarts
its stream count. STALENESS_CAP and LEARN_CONFIG set the tenant's learning parameters, the latter outside an
open window. WATCH_SET for every request sets the tenant's default flags; for one request in a slot, that
request's flags. STREAM_OPEN of a class that the tenant may still open takes the lowest free number with the
count as its base and writes its grant entry; STREAM_CLOSE of an open number closes it until the boundary
frees the number. The commands that write a context's anchor restore one that was lost (deduced, log entry 108). -/
def Obligations.ParametersAndStreamsAreSet : Prop :=
  (∀ (s : State) (h : Hdr) (n : U32), Free s → 0x00100000 ≤ n.toNat →
      exec (.setStrideRate h n) s = answers s h 0x02 0 { s.eng with time := { s.eng.time with nsps := n } })
  ∧ (∀ (s : State) (h : Hdr) (key : U128), Free s → isOpen s.eng h.target.toNat = true →
      reqCount s.eng h.target.toNat = 0 → openStreams s.eng h.target.toNat = [] →
      exec (.seedSet h key) s = answers s h 0x40 0
        (reanchor h.target.toNat
          (setTen h.target.toNat { ten s.eng h.target.toNat with tseed := key, opencnt := 0 } s.eng)))
  ∧ (∀ (s : State) (h : Hdr) (cap window : U16) (tokens : U32) (stash : U64), Free s →
      isOpen s.eng h.target.toNat = true →
      let tc := h.target.toNat
      let t := ten s.eng tc
      exec (.stalenessCap h cap) s
        = answers s h 0x34 0 (setTen tc { t with learn := { t.learn with cap := cap.toNat } } s.eng)
      ∧ (t.learn.ls ≠ .opened → t.learn.ls ≠ .granted →
        exec (.learnConfig h tokens window stash) s = answers s h 0x32 0 (setTen tc { t with learn := { t.learn with
          tokens := tokens.toNat, window := window.toNat, stash := stash.toNat } } s.eng)))
  ∧ (∀ (s : State) (h : Hdr) (f : U4) (rid : U32) (slot : Nat) (r : Req), Free s → isOpen s.eng h.target.toNat = true →
      exec (.watchSet h (f.setWidth 32) 0xFFFFFFFF) s
        = answers s h 0x51 0 (setTen h.target.toNat { ten s.eng h.target.toNat with dflt := f } s.eng)
      ∧ (rid ≠ 0xFFFFFFFF#32 → findSlot s.eng h.target.toNat rid = some (slot, r) → terminal r.e.st = false →
        exec (.watchSet h (f.setWidth 32) rid) s
          = answers s h 0x51 0 (modReq slot (fun r => { r with w := { r.w with watch := f } }) s.eng)))
  ∧ (∀ (s : State) (h : Hdr) (n : Nat) (rid num : U32), Free s → isOpen s.eng h.target.toNat = true →
      let tc := h.target.toNat
      let t := ten s.eng tc
      (∀ (cls : U8) (salt : U32), firstFree (tkeys t.streams) 1 16 = some n →
        (cls = 4 ∧ salt = 0
          ∨ cls = 3 ∧ salt = 0 ∧ (∀ x ∈ openStreams s.eng tc, x.2.cls ≠ 3)
          ∨ cls = 2 ∧ (∃ r, anyReq s.eng tc rid = some r ∧ terminal r.e.st = false ∧ salt = r.d.salt)
              ∧ ∀ x ∈ openStreams s.eng tc, x.2.cls = 2 → x.2.rid ≠ rid) →
        ∃ st : Strm, st = { cls := cls.toNat, rid := rid, salt := salt, base := t.opencnt, clearing := false }
          ∧ exec (.streamOpen h cls rid) s = answers s h 0x41 n (reanchor tc (grantWrite tc n st (setTen tc { t with
            streams := tset t.streams n st, opencnt := t.opencnt + 1 } s.eng))))
      ∧ ((∃ st, (num.toNat, st) ∈ openStreams s.eng tc) →
        exec (.streamClose h num) s = answers s h 0x42 0 (reanchor tc (setTen tc { t with
          streams := t.streams.map (fun x => if x.1 = num.toNat then (x.1, { x.2 with clearing := true }) else x) } s.eng))))

/-- TENANT_OPEN of a FREE context other than TC0 opens it with the QoS record, with its seed TC, no stream, no
learning state, and its counters at zero; TENANT_QOS puts a new record in force and joins the virtual time
when BE_WEIGHT becomes non-zero. TENANT_CLOSE with MODE 0 of an open context: it is CLOSING, RESULT counts its
requests, and no request changes; of a torn context it is noted; with MODE 1 the context is CLOSING too, its
ring is disabled, the packets accepted from it are answered TORN, every request of it ends, parked ones among them, and
no other tenant's request changes. Of an opened context's page the vector words are 0, PEND among them (deduced, log
entry 70). The seed and the anchor of an opened context are new: one that was lost is restored (deduced, log entry 108). -/
def Obligations.TenantsOpenChangeAndClose : Prop :=
  (∀ (s : State) (h : Hdr) (qos : U64), Free s → Readable64 s.eng qos →
      let tc := h.target.toNat
      let t := ten s.eng tc
      let q := parseQos (rd s.eng qos.toNat 64)
      (t.st = .free → tc ≠ 0 →
        exec (.tenantOpen h qos) s = answers s h 0x05 0 (reanchor tc (pageReset tc (setTen tc { t with
          st := .opened, fclass := 0, qos := q, vt := vtJoin s.eng tc, closeAsked := false, tseed := BitVec.ofNat 128 tc,
          opencnt := 0, streams := [], learn := TLearn.fresh s.eng.pver, dl := { late := 0, fbk := 0, risk := 0 },
          smax := 0 } s.eng))))
      ∧ (isOpen s.eng tc = true →
        exec (.tenantQos h qos) s = answers s h 0x07 0 (reanchor tc (setTen tc { t with
          qos := q, vt := if t.qos.beWeight = 0 ∧ q.beWeight ≠ 0 then vtJoin s.eng tc else t.vt } s.eng))))
  ∧ (∀ (s : State) (h : Hdr), Free s → h.target ≠ 0 →
      let tc := h.target.toNat
      let t := ten s.eng tc
      (t.st = .opened → exec (.tenantClose h 0) s
        = answers s h 0x06 (reqCount s.eng tc) (setTen tc { t with st := .closing } s.eng))
      ∧ (t.st = .torn → exec (.tenantClose h 0) s
        = answers s h 0x06 (reqCount s.eng tc) (setTen tc { t with closeAsked := true } s.eng))
      ∧ (t.st = .opened → ∃ e, exec (.tenantClose h 1) s = answers s h 0x06 (reqCount e tc) e
          ∧ (ten e tc).st = .closing ∧ regB e (rCP_RING_CTRL tc) 0 = false ∧ (ten e tc).ring.accepted = []
          ∧ (∃ e', e = clearCrEn tc (answerRing tc 0x32 e') ∧ (ten e' tc).ring.accepted = t.ring.accepted)
          ∧ (∀ p ∈ e.rq.slots, p.2.tc = tc → terminal p.2.e.st = true)
          ∧ (∀ p ∈ e.rq.parked, p.req.tc = tc → terminal p.req.e.st = true)
          ∧ (Rising s.eng.rq.slots → ∀ p ∈ e.rq.slots, p.2.tc ≠ tc → p ∈ s.eng.rq.slots)
          ∧ e.time = s.eng.time ∧ e.heat = s.eng.heat ∧ e.lanes = s.eng.lanes ∧ e.models = s.eng.models
          ∧ e.learn = s.eng.learn ∧ e.lead = s.eng.lead))

/-- PAUSE of a running request stops it in its slot with the treatment due at the boundary (deduced, log entry 80); RESUME before that
treatment returns it to ADMITTED with its table intact; CANCEL ends a live request with REASON 5 and a hold of
64 strides. SET_BUDGET of a live request that stays below its new MAX_TOKENS sets MAX_TOKENS, unless 0, and
the deadline of the budget from the effect stride, and RESULT is the budget in strides; HANDOFF of a running
request to a present peer leaves it HANDED_OFF under the next Baton number. A HANDOFF of a running request to
an absent peer is answered PEER_GONE and does nothing else. -/
def Obligations.RequestsChangeState : Prop :=
  (∀ (s : State) (h : Hdr) (rid ttl : U32) (tier : U8) (slot : Nat) (r : Req), Free s →
      isOpen s.eng h.target.toNat = true → findSlot s.eng h.target.toNat rid = some (slot, r) →
      (r.e.st = .prefilling ∨ r.e.st = .running →
        exec (.pause h rid ttl tier) s = answers s h 0x11 slot (modReq slot (fun r => { r with
          e := { r.e with st := .paused },
          w := { r.w with pauseDue := some (ttl.toNat, tier.toNat), kvReady := false,
                          draft := { Draft.empty with pkv := r.w.draft.pkv } } }) s.eng))
      ∧ (r.e.st = .paused → r.w.pauseDue ≠ none →
        exec (.resume h rid) s = answers s h 0x12 slot (modReq slot (fun r => { r with
          e := { r.e with st := .admitted }, w := { r.w with pauseDue := none, kvReady := true } }) s.eng))
      ∧ (terminal r.e.st = false → r.e.st ≠ .handedOff →
        exec (.cancel h rid) s = answers s h 0x13 r.e.gen
          (modReq slot (fun r => if terminal r.e.st then r else { r with
            e := { r.e with st := .cancelled, reason := 5, seq := 0 },
            w := { r.w with walk := none, holdEnd := some (s.eng.time.num + 64), freeNext := false, pauseDue := none,
                            draft := { Draft.empty with pkv := r.w.draft.pkv } } }) s.eng)))
  ∧ (∀ (s : State) (h : Hdr) (rid maxTokens peer : U32) (ns : U64) (slot : Nat) (r : Req), Free s →
      isOpen s.eng h.target.toNat = true → findSlot s.eng h.target.toNat rid = some (slot, r) →
      let e := s.eng
      let mt := if maxTokens = 0 then r.d.maxTokens else maxTokens.toNat
      let dl : Stride := if ns = 0 then noDl else deadline e.time.num (nsToStr ns.toNat e.time.nsps)
      (terminal r.e.st = false → r.e.st ≠ .handedOff → r.e.gen < mt →
        exec (.setBudget h rid maxTokens ns) s = answers s h 0x14 (if dl = noDl then 0 else (dl - e.time.num).toNat)
          (setReq slot { r with d := { r.d with maxTokens := mt }, e := { r.e with dl := dl } } e))
      ∧ (r.e.st = .running → (peerAt e peer).isSome = true →
        let b : Baton := { sender := true, num := e.kv.nextBaton, peer := peer, slot := slot, offered := none,
                           accepted := false, left := 0, sent := false }
        let e' := modReq slot (fun r => { r with
            e := { r.e with st := .handedOff },
            w := { r.w with baton := some e.kv.nextBaton.toNat, draft := { Draft.empty with pkv := r.w.draft.pkv } } })
          { e with kv := { e.kv with nextBaton := e.kv.nextBaton + 1, batons := e.kv.batons ++ [b] } }
        exec (.handoff h rid peer) s = answers s h 0x15 e.kv.nextBaton.toNat
          (if rowComputing e' r.w.uid then e' else offerSend b e'))
      ∧ (r.e.st = .running → peerAt e peer = none →
        exec (.handoff h rid peer) s = goes s (settled (reply h 0x15 0x25 0 e))))

/-- ADMIT of a descriptor that passes the checks of R76, with the built-in policy, a free slot and the index
disabled, enters the request in its slot as ADMITTED with the deadlines of its budgets, an empty block table
and RESULT its slot. -/
def Obligations.AdmitEntersTheRequestInItsSlot : Prop :=
  ∀ (s : State) (h : Hdr) (rid : U32) (desc : U64) (slot : Nat), Free s →
    let e := s.eng
    let tc := h.target.toNat
    let b := rd e desc.toNat 128
    let d := parseDesc b
    (ten e tc).st = .opened → badRange e desc.toNat 128 = false → descOk b rid = true → ridInUse e tc rid = false →
    descPresent e tc d = true → e.pol = none → assignSlot e tc = some slot → tget? e.rq.slots slot = none →
    regB e rIDX_CTRL 31 = false →
    ∃ e' r, exec (.admitReq h rid desc) s = answers s h 0x10 slot e' ∧ reqAt e' slot = some r
      ∧ r.tc = tc ∧ r.d = d ∧ r.e.st = .admitted ∧ r.e.gen = 0 ∧ r.e.kvpos = 0
      ∧ r.e.dl = budgetStr e d.budgetNs ∧ r.e.ft = budgetStr e d.firstNs ∧ r.w.uid = e.rq.nextUid ∧ r.w.table = []
      ∧ (∀ k, k ≠ slot → reqAt e' k = reqAt e k) ∧ e'.rq.parked = e.rq.parked
      ∧ e'.heat = e.heat ∧ e'.time = e.time ∧ e'.flt = e.flt ∧ e'.models = e.models

/-- REGION_PUBLISH of a handle that exists or fits the quota publishes the region under its kind, and no stop
match made with another region under the handle is kept; of an adapter table it makes the slot resident at the
address, or not. -/
def Obligations.RegionPublishNamesTheRegion : Prop :=
  ∀ (s : State) (h : Hdr) (addr : U64) (bytes : U32) (kind : U8) (handle : U32), Free s →
    isOpen s.eng h.target.toNat = true →
    let e := s.eng
    let tc := h.target.toNat
    (kind ≠ 3 → handle ≠ 0 → (bytes ≠ 0 → badRange e addr.toNat bytes.toNat = false) →
      ((regionAt e tc handle).isSome = true ∨ (regionsOf e tc).length < 256) →
      exec (.regionPublish h addr bytes kind handle) s = answers s h 0x16 handle.toNat (stopmClear tc handle { e with
        regions := tset e.regions (regionKey tc handle) { kind := kind.toNat, addr := addr.toNat, bytes := bytes.toNat } }))
    ∧ (∀ a, tget? e.aslots handle.toNat = some a → a.tc = tc →
      exec (.regionPublish h addr bytes 3 handle) s = answers s h 0x16 handle.toNat { e with
        aslots := tset e.aslots handle.toNat (if bytes = 0 then { a with resident := false }
          else { a with resident := true, table := addr.toNat }) })

/-- POLICY_LOAD of an image that passes its checks puts its stages and its table of signed words in use, in the PF0 of
every quadrant; RESULT and RQT_PF_DIGEST are REVISION, the number of stages and the CRC. PLAN_LOAD of an image that
passes its checks, for a registered model, with as many entries reserved at its fetch or, without a reservation, free
as it needs beyond the model's own, puts its plans in those entries, the reserved ones first, in place of the model's
earlier plans, each in the share of its quadrant; RESULT counts them. An image that a check refuses is answered
BAD_VERSION or BAD_IMAGE, one that cannot be read MEM_ERROR, and the packet does nothing else. -/
def Obligations.PolicyAndPlanImagesAreLoaded : Prop :=
  (∀ (s : State) (h : Hdr) (addr : U64) (bytes : U32), Free s → PolicyImage s.eng addr.toNat bytes.toNat →
      let img := rd s.eng addr.toNat bytes.toNat
      let digest := byteAt img 5 * 2 ^ 40 + byteAt img 6 * 2 ^ 32 + fieldAt img 12 4
      exec (.policyLoad h addr bytes) s = answers s h 0x03 digest { s.eng with
        pol := some {
          stages := (List.range (byteAt img 6)).map (fun i => parseStage ((img.drop (64 + 64 * i)).take 64)),
          tbl := (List.range (fieldAt img 20 4 / 4)).map (fun i => sgn32 (fieldAt img (fieldAt img 16 4 + 4 * i) 4)),
          digest := BitVec.ofNat 48 digest },
        images := tset s.eng.images 256 (addr.toNat, bytes.toNat, 0), plans := { s.eng.plans with pf := 0xF } })
  ∧ (∀ (s : State) (h : Hdr) (addr : U64) (model : U8) (n : U16) (m : Model), Free s →
      PlanImage s.eng addr.toNat model.toNat n.toNat → tget? s.eng.models model.toNat = some m →
      let img := rd s.eng addr.toNat (64 + 1024 * n.toNat)
      let ps := (List.range n.toNat).map (fun i => parsePlan ((img.drop (64 + 1024 * i)).take 1024))
      let resv := match s.eng.plans.resv.find? (fun r => r.ridx == h.ridx) with
        | some r => r.entries
        | none => storeFree s.eng n.toNat
      n.toNat ≤ resv.length + m.plans.length →
      let own := (resv ++ sortBy (fun a b => decide (a < b)) m.plans).take n.toNat
      let key (p : Nat) : Nat := p % 4 * 1024 + p / 4
      exec (.planLoad h addr model n) s = answers s h 0x04 n.toNat { s.eng with
        plans := { s.eng.plans with
          resv := s.eng.plans.resv.filter (fun r => r.ridx != h.ridx),
          store := (own.zip ps).foldl (fun t x => tset t (key x.1) x.2)
            (m.plans.foldl (fun t p => tdel t (key p)) s.eng.plans.store) },
        models := tset s.eng.models model.toNat (withConsts ps { m with plans := own }),
        images := tset s.eng.images model.toNat (addr.toNat, 64 + 1024 * n.toNat, n.toNat) })
  ∧ (∀ (s : State) (h : Hdr) (addr : U64) (bytes : U32) (model : U8) (n : U16), Free s →
      let no (op st : Nat) : Host.Outcome State Fault Refusal := goes s (settled (reply h op st 0 s.eng))
      (badRange s.eng addr.toNat bytes.toNat = true → exec (.policyLoad h addr bytes) s = no 0x03 0x30)
      ∧ (badRange s.eng addr.toNat bytes.toNat = false →
        let img := rd s.eng addr.toNat bytes.toNat
        (bytes.toNat < 64 → exec (.policyLoad h addr bytes) s = no 0x03 0x17)
        ∧ (64 ≤ bytes.toNat → byteAt img 4 ≠ 4 → exec (.policyLoad h addr bytes) s = no 0x03 0x12)
        ∧ (64 ≤ bytes.toNat → byteAt img 4 = 4 → ¬ PolicyImage s.eng addr.toNat bytes.toNat →
            exec (.policyLoad h addr bytes) s = no 0x03 0x17))
      ∧ (s.eng.plans.resv = [] →
        (badRange s.eng addr.toNat (64 + 1024 * n.toNat) = true → exec (.planLoad h addr model n) s = no 0x04 0x30)
        ∧ (badRange s.eng addr.toNat (64 + 1024 * n.toNat) = false →
          let img := rd s.eng addr.toNat (64 + 1024 * n.toNat)
          (byteAt img 4 ≠ 4 → exec (.planLoad h addr model n) s = no 0x04 0x12)
          ∧ (byteAt img 4 = 4 → crcOk img 12 = false → exec (.planLoad h addr model n) s = no 0x04 0x17))))

/-- MODEL_REGISTER of a readable descriptor that passes R240 enters the model; MODEL_EVICT of a model that nothing
uses removes it with its plans and its adapters, and gives its private experts no owner; both compute the
advice anew. ADAPTER_REGISTER of a new version retires the adapter's earlier slots and takes the lowest free
slot, LIVE and resident; ADAPTER_RETIRE with FORCE 1 retires the named version's slot and marks every request
pinned to it for a re-pin. EXPERT_SET of a set of an expert model that is free or TARGET's own defines it for
TARGET and writes its table entry. -/
def Obligations.ModelsAdaptersAndExpertSets : Prop :=
  (∀ (s : State) (h : Hdr) (desc : U64) (model : U8), Free s →
      let e := s.eng
      (badRange e desc.toNat 64 = false → byteAt (rd e desc.toNat 64) 4 = 4 → modelOk (rd e desc.toNat 64) model.toNat = true →
        tget? e.models model.toNat = none →
        exec (.modelRegister h desc model) s = answers s h 0x20 model.toNat
          (adviceNow { e with models := tset e.models model.toNat (parseModel (rd e desc.toNat 64)) }))
      ∧ (∀ m, tget? e.models model.toNat = some m → modelUsed e model.toNat = false →
        ∃ e', exec (.modelEvict h model) s = answers s h 0x21 0 (adviceNow e') ∧ tget? e'.models model.toNat = none
          ∧ (∀ k, k ≠ model.toNat → tget? e'.models k = tget? e.models k)
          ∧ (∀ p ∈ m.plans, planAt e' p = none)
          ∧ (∀ a ∈ e'.aslots, a.2.model ≠ model.toNat)
          ∧ (∀ x ∈ e'.xsets, x.1 / 65536 = model.toNat → x.2.owner = none)))
  ∧ (∀ (s : State) (h : Hdr) (table : U64) (model : U8) (ad ver rank : U16) (n : Nat), Free s →
      isOpen s.eng h.target.toNat = true →
      let e := s.eng
      let tc := h.target.toNat
      let mine := adapterSlots e model.toNat ad.toNat
      (∀ m, tget? e.models model.toNat = some m → m.variant = 1 →
        (∀ a ∈ mine, a.2.tc = tc ∧ a.2.version < ver.toNat) → mine.length < 4 →
        firstFree (tkeys e.aslots) 0 4096 = some n →
        let new : ASlot := {
          retired := false, resident := true, tc := tc, model := model.toNat, adapter := ad.toNat, version := ver.toNat,
          rank := rank.toNat, table := table.toNat }
        exec (.adapterRegister h table model ad ver rank) s = answers s h 0x22 n { e with
          aslots := tset (e.aslots.map (fun a => if a.2.model = model.toNat ∧ a.2.adapter = ad.toNat
            then (a.1, { a.2 with retired := true }) else a)) n new })
      ∧ (versionSlot e tc model.toNat ad.toNat ver.toNat = some n →
        let mark (r : Req) : Req :=
          if r.w.aslot = some n ∧ terminal r.e.st = false ∧ r.e.fbk = false then { r with w := { r.w with repinDue := true } } else r
        let k := ((allReqs e).filter (fun r => repinSet r n)).length
        exec (.adapterRetire h model ad ver 1) s
          = goes s (settled (reply h 0x23 (if k = 0 then 0 else sOK_FLAGGED) k { e with
              aslots := tmod e.aslots n (fun a => { a with retired := true }),
              rq := { e.rq with
                slots := e.rq.slots.map (fun p => (p.1, mark p.2)),
                parked := e.rq.parked.map (fun p => { p with req := mark p.req }) } }))))
  ∧ (∀ (s : State) (h : Hdr) (mask : U64) (model : U8) (set : U16) (m : Model), Free s →
      isOpen s.eng h.target.toNat = true → tget? s.eng.models model.toNat = some m → m.variant = 2 → set.toNat < m.nset →
      (∀ x, tget? s.eng.xsets (xsetKey model.toNat set.toNat) = some x → x.owner = none ∨ x.owner = some h.target.toNat) →
      let key := xsetKey model.toNat set.toNat
      let x : XSet := { owner := some h.target.toNat, addr := mask.toNat }
      exec (.expertSet h mask model set) s
        = answers s h 0x24 set.toNat (xsetWrite key x { s.eng with xsets := tset s.eng.xsets key x }))

/-- ADAPTER_RETIRE with FORCE 0, by an open context, of a (MODEL, ADAPTER, VERSION): with no slot of TARGET that
holds it the answer is NO_SUCH_OBJECT and nothing else happens; else that slot is RETIRED, RESULT is 0 and the
status OK, and every other slot is as it was, as is a slot already RETIRED. -/
def Obligations.AdapterRetireOfANamedVersion : Prop :=
  ∀ (s : State) (h : Hdr) (model : U8) (ad ver : U16), Free s → isOpen s.eng h.target.toNat = true →
    let e := s.eng
    let held (x : Nat × ASlot) : Prop := x.2.tc = h.target.toNat ∧ x.2.model = model.toNat ∧ x.2.adapter = ad.toNat
      ∧ x.2.version = ver.toNat
    ((∀ x ∈ e.aslots, ¬ held x) →
      exec (.adapterRetire h model ad ver 0) s = goes s (settled (reply h 0x23 0x22 0 e)))
    ∧ ((∃ x ∈ e.aslots, held x) → ∃ n a, (n, a) ∈ e.aslots ∧ held (n, a)
      ∧ exec (.adapterRetire h model ad ver 0) s = answers s h 0x23 0 { e with
          aslots := e.aslots.map (fun x => if x.1 = n then (n, { x.2 with retired := true }) else x) })

/-- LANE_GRANT of lanes that are all FREE, to a context that is not CLOSING, makes exactly them GRANTED to the
tenant, each with an order; LANE_RECLAIM of lanes the tenant holds starts saving exactly them and notes the
reclaim with the orders of its lanes, which follow the reply, and its completion, which follows the SAVED reports.
Nothing but the lanes, the manifest ports that carry the orders, and the reply changes. -/
def Obligations.LanesAreGrantedAndReclaimed : Prop :=
  ∀ (s : State) (h : Hdr) (mask : U64) (budget : U32), Free s →
    let tc := h.target.toNat
    ((ten s.eng tc).st = .opened → (∀ l < 64, mask.getLsbD l = true → (laneOf s.eng l).st = .free) →
      ∃ e, exec (.laneGrant h mask) s = answers s h 0x08 (lanesOf e tc [.granted]).length e
        ∧ (∀ l < 64, if mask.getLsbD l = true then (laneOf e l).st = .granted ∧ (laneOf e l).tc = tc
            ∧ (laneOf e l).order.isSome = true else laneOf e l = laneOf s.eng l)
        ∧ e.lanes.reclaims = s.eng.lanes.reclaims
        ∧ { e with lanes := s.eng.lanes, port := s.eng.port } = s.eng)
    ∧ (isOpen s.eng tc = true → mask ≠ 0 →
        (∀ l < 64, mask.getLsbD l = true → (laneOf s.eng l).st = .granted ∧ (laneOf s.eng l).tc = tc) →
      ∃ e n r, exec (.laneReclaim h mask budget) s = answers s h 0x09 n e
        ∧ (∀ l < 64, if mask.getLsbD l = true then (laneOf e l).st = .saving ∧ (laneOf e l).tc = tc
            else laneOf e l = laneOf s.eng l)
        ∧ e.lanes.reclaims = s.eng.lanes.reclaims ++ [r] ∧ r.h = h ∧ r.lanes = maskLanes mask
        ∧ r.stamp = s.eng.time.stamp ∧ r.due.map (·.lane) = maskLanes mask
        ∧ { e with lanes := s.eng.lanes, free := s.eng.free } = s.eng)

/-- CONTEXT_SAVE into a region that holds the image writes it there, its CRC over the whole, and RESULT is its
length; nothing of the context changes (the order of the requests in it, and the choice of the lanes that a restore grants,
are deduced, log entry 73). CONTEXT_RESTORE of an image of no request into an empty context in GEN
sets what the image holds of it: seed, counts, streams and learning parameters; the grant entries are written,
and lanes are granted as far as they are FREE. A closed stream that still holds its number gives way to the image's
(the model's choice, log entry 112). -/
def Obligations.ContextsAreSavedAndRestored : Prop :=
  (∀ (s : State) (h : Hdr) (addr : U64) (bytes : U32), Free s → isOpen s.eng h.target.toNat = true →
      let tc := h.target.toNat
      let rs := savedReqs s.eng tc
      let n := 384 + 256 * rs.length
      n ≤ bytes.toNat →
      exec (.contextSave h addr bytes) s = answers s h 0x0A n (wr addr.toNat
        (patch (imageRaw s.eng tc rs) 12 (le 4 (crc32c (imageRaw s.eng tc rs)).toNat)) s.eng))
  ∧ (∀ (s : State) (h : Hdr) (addr : U64) (bytes : U32), Free s →
      let e := s.eng
      let tc := h.target.toNat
      let img := rd e addr.toNat bytes.toNat
      (ten e tc).st = .opened → badRange e addr.toNat bytes.toNat = false → 384 ≤ bytes.toNat → byteAt img 4 = 4 →
      imageOk img bytes.toNat = true → fieldAt img 24 4 = 0 → reqCount e tc = 0 → openStreams e tc = [] → turnOf e tc = .gen →
      let t := ten e tc
      let e1 := grantTenant tc (setTen tc { t with
        tseed := BitVec.ofNat 128 (fieldAt img 32 16), opencnt := BitVec.ofNat 32 (fieldAt img 28 4),
        streams := (imageStreams img).foldl (fun s x => tset s x.1 x.2) t.streams,
        learn := { t.learn with
          cap := fieldAt img 22 2, stash := fieldAt img 48 8, tokens := fieldAt img 56 4, window := fieldAt img 60 2,
          lver := BitVec.ofNat 16 (fieldAt img 62 2) } } e)
      let ls := restoreLanes tc (byteAt img 7) e1
      exec (.contextRestore h addr bytes) s = answers s h 0x0B 0
        (reanchor tc (setReg rCP_RESTORE_STAT (BitVec.ofNat 64 ls.length) (grantLanes tc ls e1))))

/-- RESET_SCOPE: of a quadrant other than Q0, in HOLD with no quadrant in reset, it resets the quadrant and waits
for its rejoin; of an open context other than TC0 it registers the teardown of R287 for the next stride; of a
lane that is not FREE it frees the lane at once, answers OK, and completes with its reply (that no order is owed to the
lane is deduced, log entry 39). -/
def Obligations.ResetScopePacketsReset : Prop :=
  ∀ (s : State) (h : Hdr) (q : Quad) (tc : U8) (l : BitVec 6), Free s →
    (inHold s.eng = true → q ≠ 0 → s.eng.lead.resetQ = 0 →
      ∃ e, e = quadReset q s.eng
        ∧ exec (.resetScopeQuadrant h (q.setWidth 8)) s = answers s h 0x0C 0 { e with lead := { e.lead with
            resetRun := e.lead.resetRun ++ [(q, h)] } })
    ∧ (tc ≠ 0 → isOpen s.eng tc.toNat = true →
      ∃ e, e = fault .tenantReset tc (.tenant tc) hReset hReset (tc.setWidth 64) s.eng
        ∧ exec (.resetScopeTenant h tc) s = answers s h 0x0C 0 { e with flt := { e.flt with
            resets := e.flt.resets ++ [(tc.toNat, h)] } })
    ∧ ((laneOf s.eng l.toNat).st ≠ .free →
      ∃ e, exec (.resetScopeLane h (l.setWidth 8)) s
          = answers s h 0x0C 0 { e with pwr := { e.pwr with owed := e.pwr.owed ++ [(5, h)] } }
        ∧ (laneOf e l.toNat).st = .free ∧ (laneOf e l.toNat).order = none
        ∧ ∀ k, k ≠ l.toNat → laneOf e k = laneOf s.eng k)

/-- COUNTER_LATCH of a group the ring may read, with a latch region set, writes the record of R367 with the
group's 24 counters into the next entry, privileged or the tenant's, and RESULT is its number. Of the counters those the
engine counts are as they stand, in group 0x0100 TARGET's; a measured one has gone on by a free amount (the model's
choice, log entry 5) and is kept so. -/
def Obligations.CounterLatchWritesItsRecord : Prop :=
  ∀ (s : State) (h : Hdr) (group : U16) (edge : U8), Free s → isOpen s.eng h.target.toNat = true →
    let e := s.eng
    let ring := h.ring.toNat
    let o := if ring = 0 then rDBG_LATCH_BASE else rDBG_TLATCH ring
    let no := if ring = 0 then e.latchNo else (ten e ring).latchNo
    let a := (reg e o).toNat / 4096 * 4096 + 256 * (no.toNat % 2 ^ regN e o 4 0)
    (group.toNat = 0x100 ∨ group.toNat < 4 ∧ ring = 0) → (reg e o).toNat / 4096 ≠ 0 →
    let g := group.toNat
    let key (i : Nat) : Nat := if g = 0x100 then tcntKey h.target.toNat i else cntKey g i
    let val (i : Nat) : U64 := tget 0 e.cnt (key i)
      + (if isMeasured g i then BitVec.ofNat 64 (Config.measured (e.free + if g = 0x100 then 0 else i)) else 0)
    ∃ (vs : List U64) (c : Table U64), vs = (List.range 24).map val
      ∧ (∀ i < 24, isMeasured g i = true → tget 0 c (key i) = val i)
      ∧ (∀ k, (∀ i < 24, isMeasured g i = true → k ≠ key i) → tget 0 c k = tget 0 e.cnt k)
      ∧ exec (.counterLatch h group edge) s = answers s h 0x50 no.toNat
          (let e1 := wr a (le 4 no.toNat ++ le 2 g ++ le 1 edge.toNat ++ le 1 h.target.toNat
              ++ le 6 e.time.num.toNat ++ zeros 2 ++ le 4 h.tag.toNat ++ zeros 4 ++ le 8 e.time.stamp.toNat ++ zeros 32
              ++ vs.flatMap (fun v => le 8 v.toNat))
            { e with cnt := c, free := e.free + ((List.range 24).filter (isMeasured g)).length }
          if ring = 0 then { e1 with latchNo := no + 1 }
          else setTen ring { ten e ring with latchNo := no + 1 } e1)

/-- TURN_TO_LEARN of a tenant in GEN, with TOKENS and a rollout store, takes the learn phase: TURNING, RESULT its
live rollouts; TURN_TO_GENERATE from IDLE with a version not behind PVER sets PVER, gives the phase up and
returns the tenant to GEN. -/
def Obligations.TurnsOfTheLearner : Prop :=
  ∀ (s : State) (h : Hdr) (mode : U8) (pver : U16), Free s → isOpen s.eng h.target.toNat = true →
    let e := s.eng
    let tc := h.target.toNat
    let t := ten e tc
    (t.learn.ls = .gen → e.learn.owner = none → t.learn.tokens ≠ 0 → roBase e tc ≠ 0 →
      exec (.turnToLearn h mode) s = answers s h 0x30 (turnLive e tc) { setTen tc { t with learn := { t.learn with
          ls := .turning, park := mode == 1, turnPkts := [h] } } e with
        learn := { e.learn with owner := some tc, phaseLearned := [], win := none, deferred := [] } })
    ∧ (t.learn.ls = .idle → verAhead e.pver pver = false →
      ∃ u, exec (.turnToGenerate h pver) s = .next u ∧ u.pending = s.pending ∧ u.eng.pver = pver
        ∧ u.eng.learn.owner = none ∧ u.eng.learn.win = none ∧ (ten u.eng tc).learn.ls = .gen
        ∧ (ten u.eng tc).learn.park = false)

/-- OPT_STEP_DONE in GRANTED: a PVER that is not ahead of the window's WVER is answered WRONG_STATE and changes
nothing else; else LVER is that PVER, the window's USED records are freed, the tenant is in L_IDLE and RESULT
is the window's number. -/
def Obligations.OptStepDoneEndsTheWindow : Prop :=
  ∀ (s : State) (h : Hdr) (pver : U16) (w : Win), Free s → isOpen s.eng h.target.toNat = true →
    let tc := h.target.toNat
    (ten s.eng tc).learn.ls = .granted → s.eng.learn.win = some w →
    (verAhead pver w.wver = false → exec (.optStepDone h pver) s = goes s (settled (reply h 0x33 0x24 0 s.eng)))
    ∧ (verAhead pver w.wver = true → ∃ e, exec (.optStepDone h pver) s = answers s h 0x33 w.num.toNat e
      ∧ (ten e tc).learn.ls = .idle ∧ (ten e tc).learn.lver = pver ∧ e.learn.win = none
      ∧ (∀ i r, i ∈ w.mbs.flatMap (·.entries) → tget? (ten e tc).learn.store i = some r → r.st ≠ 3)
      ∧ (∀ i, i ∉ w.mbs.flatMap (·.entries) → tget? (ten e tc).learn.store i = tget? (ten s.eng tc).learn.store i)
      ∧ e.learn.owner = s.eng.learn.owner ∧ e.pver = s.eng.pver ∧ e.rq = s.eng.rq ∧ e.kv = s.eng.kv ∧ e.time = s.eng.time
      ∧ (∀ k, k ≠ tc → ten e k = ten s.eng k))

/-- Stride events: one less than 16 HCLK cycles after the last accepted one is ignored and counted, and the count of cycles
goes on (R308); one that does not move CP_STRIDE ahead is a STRIDE_REPEAT fault and nothing else; the next stride, with nothing due, becomes
CP_STRIDE with its boundary flag and stamp, and lays down its duties. -/
def Obligations.StrideEventsRegisterOrAreTurnedAway : Prop :=
  ∀ (s : State) (num : Stride) (bnd : Bool) (hclk : Nat), Free s → entryDeep s.eng = false →
    s.eng.time.afterWake = false → s.eng.time.valid = true →
    let e := s.eng
    let n := e.time.hclk + hclk
    let at_ (n : Nat) : Engine := { e with time := { e.time with hclk := n } }
    (n < 16 → exec (.strideEvent num bnd hclk) s = goes s (bumpSat rCP_PORT_ERR 63 56 1 (at_ n)))
    ∧ (16 ≤ n → ahead num e.time.num = false →
        exec (.strideEvent num bnd hclk) s = goes s (fault .strideRepeat 0 .none hTime hTime (num.setWidth 64) (at_ 0)))
    ∧ (16 ≤ n → num = e.time.num + 1 → NothingDue e → inHold e = false → e.pwr.eng < 2 →
        exec (.strideEvent num bnd hclk) s = goes s { e with
          time := { e.time with bnd := bnd, num := num, strideStamp := e.time.stamp, hclk := 0 },
          rq := { e.rq with tblBump := [] },
          sched := { e.sched with bndWait := bnd || e.sched.bndWait,
                                  agenda := dutiesOf num (bnd || e.sched.bndWait) e } })

/-- The duties of a stride act in turn. Lease renewal: the Pacer acknowledges itself and sends RENEW to the
quadrants it reaches, and every other one is without a lease until RENEW reaches it; the counter window: use counts and slack maxima start anew; the period window:
CP_NSPS_MEAS takes 16 times the window's nanoseconds, and is committed by an external event when the automatic
commit is on; a commit registered at an earlier stride sets CP_NSPS, one of this stride waits. RENEW reaches a quadrant
that may acknowledge and holds no epoch above the Pacer's: it holds the Pacer's epoch with the current stride as its
lease, and its acknowledgement arrives when the Pacer can be reached from it; a quadrant that may not, or that holds a
higher epoch, does nothing else than note that RENEW came. Which quadrants may is in part deduced (log entry 19), and what
the counter window resets is too (log entry 36). -/
def Obligations.StrideDutiesAct : Prop :=
  (∀ (s : State) (ds : List Duty), Strides s →
      let e := s.eng
      (∀ p, Next e .lease ds → e.lead.pacer = some p → eligible e p.toNat = true →
        exec .leaseRenewal s = goes s { taken e ds with lead := { e.lead with
          leaseLost := ~~~(1#4 <<< p.toNat), renewing := true, acks := 1#4 <<< p.toNat,
          renewWait := ((List.range 4).filter (fun q => q != p.toNat && reach e p.toNat q)).map (BitVec.ofNat 2) } })
      ∧ (Next e .windows ds → regB e rDBG_LATCH_BASE 5 = false → regB e rDBG_TRACE_CTRL 0 = false →
        ∃ e', e' = adviceNow { taken e ds with
            models := e.models.map (fun p => (p.1, { p.2 with useLast := p.2.useNow, useNow := 0 })) }
          ∧ exec .counterWindowClose s = goes s { e' with
              ten := e.ten.map (fun p => (p.1, { p.2 with smax := 0 })),
              lanes := { e.lanes with lanes := e.lanes.lanes.map (fun p => (p.1, { p.2 with smax := 0 })) } })
      ∧ (∀ w, Next e .nspsWindow ds → e.time.winStamp = some w → e.time.winBad = false →
        0x00100000 ≤ 16 * (e.time.strideStamp - w).toNat → 16 * (e.time.strideStamp - w).toNat ≤ 0xFFFFFFFF →
        ∃ v : U32, v.toNat = 16 * (e.time.strideStamp - w).toNat
          ∧ exec .nspsWindowClose s = goes s { taken e ds with
              time := { e.time with winStamp := some e.time.strideStamp, winBad := false, nspsMeas := v },
              sched := { e.sched with agenda := ds,
                                      ext := if regB e rCP_TIME_CTRL 0 then e.sched.ext ++ [(e.time.num, .nsps v)]
                                        else e.sched.ext } })
      ∧ (∀ v n, e.sched.ext = [(n, .nsps v)] → n ≠ e.time.num →
        exec .nspsAutoCommit s = goes s { e with
          time := { e.time with nsps := v },
          sched := { e.sched with ext := [], recs := e.sched.recs ++ [(5, 0, 0, v.setWidth 64)] } })
      ∧ ((∀ x ∈ e.sched.ext, x.1 = e.time.num) → exec .nspsAutoCommit s = .next s))
  ∧ (∀ (s : State) (p q : Quad), Free s → s.eng.lead.pacer = some p → q ∈ s.eng.lead.renewWait →
      let l := s.eng.lead
      let wait := l.renewWait.filter (· != q)
      let lost := l.leaseLost &&& ~~~(1#4 <<< q.toNat)
      (eligible s.eng q.toNat = true → (heldEpoch s.eng q.toNat).toNat ≤ l.epoch.toNat → reach s.eng q.toNat p.toNat = true →
        (∀ x ∈ l.resetRun, x.1 ≠ q) →
        exec (.renew q) s = goes s { s.eng with lead := { l with
          renewWait := wait, leaseLost := lost, held := tset l.held q.toNat l.epoch, leaseStr := tset l.leaseStr q.toNat s.eng.time.num,
          acks := l.acks ||| 1#4 <<< q.toNat } })
      ∧ (eligible s.eng q.toNat = false ∨ l.epoch.toNat < (heldEpoch s.eng q.toNat).toNat →
        exec (.renew q) s = goes s { s.eng with lead := { l with renewWait := wait, leaseLost := lost } }))

/-- The ends of holds and of lifetimes. TERMINAL_HOLD_END frees exactly the slots whose request's terminal hold is
over, and the other requests stay as they are; TTL_SCAN removes every index node of a lower tier without
references whose expiry has come. -/
def Obligations.HoldsAndLifetimesEnd : Prop :=
  ∀ (s : State) (ds : List Duty), Strides s →
    (Next s.eng .holds ds → Rising s.eng.rq.slots →
      ∃ t, exec .terminalHoldEnd s = .next t ∧ t.pending = s.pending
        ∧ (∀ k r, reqAt s.eng k = some r →
            reqAt t.eng k = if holdOver s.eng.time.num false r = true then none else some r)
        ∧ (∀ k, reqAt s.eng k = none → reqAt t.eng k = none)
        ∧ t.eng.time = s.eng.time ∧ t.eng.lead = s.eng.lead ∧ t.eng.heat = s.eng.heat ∧ t.eng.regs = s.eng.regs
        ∧ t.eng.models = s.eng.models)
    ∧ (Next s.eng .ttl ds →
      ∃ t, exec .ttlScan s = .next t ∧ t.pending = s.pending
        ∧ (∀ n x y, (n, x) ∈ s.eng.kv.nodes → 2 ≤ x.loc → x.refs = 0 → x.expiry = some y →
            reached y s.eng.time.num = true → nodeAt t.eng n = none)
        ∧ tkeys t.eng.rq.slots = tkeys s.eng.rq.slots
        ∧ t.eng.time = s.eng.time ∧ t.eng.lead = s.eng.lead ∧ t.eng.heat = s.eng.heat ∧ t.eng.models = s.eng.models)

/-- A boundary that is due, with no request and nothing computing. In IDLE it is a plain stride: only terminal holds end
(R350). In HOLD no heat starts and the other work of a boundary leaves requests, KV, memory and time as they are (that
the rest of a boundary runs in HOLD is deduced, log entry 17). Else it issues an empty generate heat: the next heat
number, no plan, no row, at the current stride. -/
def Obligations.BoundariesIssueHeats : Prop :=
  ∀ (s : State) (ds : List Duty), Strides s → Next s.eng .boundary ds → .boundaryRest ∉ ds →
    let e := s.eng
    let e1 := { e with sched := { e.sched with agenda := ds, bndWait := false, held := false } }
    let bare : Prop := e.pwr.eng < 2 ∧ e.heat.cur = none ∧ e.cap.asked = none
      ∧ e.learn.owner = none ∧ e.xsets = [] ∧ e.aslots = [] ∧ e.lanes.slow = false ∧ e.sched.held = false
      ∧ ∀ tc, (ten e tc).ring.accepted = [] ∧ (ten e tc).streams = [] ∧ (ten e tc).dl = { late := 0, fbk := 0, risk := 0 }
          ∧ ((ten e tc).st = .free ∨ (ten e tc).st = .opened)
    e.rq.slots = [] → e.rq.parked = [] →
    (2 ≤ e.pwr.eng → exec .boundary s = goes s e1)
    ∧ (inHold e = true → bare →
        ∃ t, exec .boundary s = .next t ∧ t.pending = s.pending ∧ t.eng.heat = e.heat
          ∧ t.eng.mem = e.mem ∧ t.eng.ten = e.ten ∧ t.eng.rq = e.rq ∧ t.eng.kv = e.kv ∧ t.eng.time = e.time
          ∧ t.eng.lead = e.lead ∧ t.eng.flt = e.flt)
    ∧ (inHold e = false → bare →
        ∃ t h, exec .boundary s = .next t ∧ t.pending = s.pending ∧ t.eng.heat.cur = some h
          ∧ t.eng.heat.count = e.heat.count + 1 ∧ h.num = e.heat.count ∧ h.stride = e.time.num ∧ h.epoch = e.lead.epoch
          ∧ h.plan = none ∧ h.rows = [] ∧ h.learn = false ∧ h.done = 0
          ∧ t.eng.mem = e.mem ∧ t.eng.ten = e.ten ∧ t.eng.rq = e.rq ∧ t.eng.kv = e.kv ∧ t.eng.time = e.time
          ∧ t.eng.lead = e.lead ∧ t.eng.flt = e.flt)

/-- PACKET_FETCH of the packet at HEAD of a ring that may be fetched from, in its turn and with a memory tag free: HEAD
moves past it and the ring's share of the round counts it (R54); a packet that a
check of R61 refuses is answered with that check's STATUS and does nothing else; one that passes and whose
opcode prepares nothing is accepted with its effect stride; a ring that may not be fetched from, or whose turn it is
not, is left alone. What SR_STALL marks, and that a boundary waits for a late command, is deduced (log entries 47, 85).
PREPARATION_COMPLETE of a command held past its effect stride makes its stride a break and the command takes
effect there, as a late one; of a command that is not held it changes nothing. -/
def Obligations.PacketsAreFetchedAndPrepared : Prop :=
  (∀ (s : State) (tc : U8) (p : List Byte), Free s → p.length = 64 →
      let c := tc.toNat
      let ridx : U32 := (reg s.eng (rCP_CRING_HEAD c)).setWidth 32
      let e := setReg (rCP_CRING_HEAD c) ((ridx + 1).setWidth 64) (fetchCount c 1 s.eng)
      (mayFetch s.eng c = false → exec (.packetFetch tc p false) s = .next s)
      ∧ (mayFetch s.eng c = true → fetchStalled s.eng c = false → (fetchTurn s.eng).1 ≠ some c →
          exec (.packetFetch tc p false) s = .next s)
      ∧ (mayFetch s.eng c = true → fetchStalled s.eng c = false → (fetchTurn s.eng).1 = some c →
          tagFree s.eng (c % 4) = true → planWaits s.eng c (byteAt p 0) = false →
        (byteAt p 2 ≠ 4 → exec (.packetFetch tc p false) s = goes s (reply (hdrOf c p ridx) (byteAt p 0) 0x12 0 e))
        ∧ (byteAt p 2 = 4 → opRow (byteAt p 0) = none →
            exec (.packetFetch tc p false) s = goes s (reply (hdrOf c p ridx) (byteAt p 0) 0x10 0 e))
        ∧ (∀ o, opRow (byteAt p 0) = some o → fetchStatus c p e ≠ 0 →
            exec (.packetFetch tc p false) s = goes s (reply (hdrOf c p ridx) (byteAt p 0) (fetchStatus c p e) 0 e))
        ∧ (∀ o, opRow (byteAt p 0) = some o → fetchStatus c p e = 0 →
            prepSpan e (byteAt p 3) (parseCmd p) = none → byteAt p 0 ≠ 0x0D →
            ∃ eff, eff = effStride c p o e
              ∧ exec (.packetFetch tc p false) s = goes s (srStall c (modRing c (fun r => { r with
                  accepted := r.accepted ++ [{ h := hdrOf c p ridx, cmd := parseCmd p, eff := eff, reads := 0, err := false,
                                               late := false }],
                  prevE := some eff }) e)))))
  ∧ (∀ (s : State) (tc : U8) (ridx : U32) (a : Acc), Strides s → accAt s.eng tc.toNat ridx = some a →
      (a.late = true → a.reads = 0 →
        exec (.preparationComplete tc ridx) s = goes s (applyCmd [tc.toNat, ridx.toNat] a.h a.cmd true a.err
          (dropAcc tc.toNat ridx { s.eng with sched := { s.eng.sched with brk := s.eng.sched.brk ||| 0b000100 } })))
      ∧ (a.late = false ∨ a.reads ≠ 0 → exec (.preparationComplete tc ridx) s = .next s))

/-- Responses and timeouts of the memory ports. A response without an outstanding tag is STRAY; one to a read
enters its 64 bytes, or with an error marks its line bad with a MEM_ERROR fault, for whatever it was read (that a read
outside a packet's preparation is reported so is deduced, log entry 45); one to the write of the oldest status entry
moves TAIL past it. A read that times out is an error of its line with a MEM_TIMEOUT fault; its late response is STRAY
(that the tag rests until then is deduced, log entry 105). -/
def Obligations.MemoryAnswersRetireTheirTags : Prop :=
  ∀ (s : State) (port : Quad) (tag : U8) (data : List Byte) (err : Bool) (r : MemReq), Free s →
    let k := port.toNat * 256 + tag.toNat
    let e := memPump { s.eng with port := { s.eng.port with tags := tdel s.eng.port.tags k } }
    (tget? s.eng.port.tags k = none →
      exec (.memoryResponse port tag err data) s = goes s (bumpSat rCP_PORT_ERR 15 0 1 s.eng)
      ∧ exec (.memTimeout port tag) s = .next s)
    ∧ (tget? s.eng.port.tags k = some r → r.write = false → r.who = .none →
      exec (.memoryResponse port tag false data) s = goes s { e with
        mem := memWrite s.eng.mem r.addr (padTo 64 data), bad := s.eng.bad.filter (· != r.addr) }
      ∧ (∃ e', e' = fault .memError 0 .none (hMem r.port.toNat) (hMem r.port.toNat) (BitVec.ofNat 64 r.addr) e
        ∧ exec (.memoryResponse port tag true data) s = goes s { e' with bad := r.addr :: e'.bad.filter (· != r.addr) })
      ∧ ∃ e', e' = fault .memTimeout 0 .none (hMem r.port.toNat) (hMem r.port.toNat) (BitVec.ofNat 64 r.addr)
            (count 2 12 1 (bumpSat rCP_PORT_ERR 31 16 1 { s.eng with port := { s.eng.port with
              tags := tset s.eng.port.tags k { r with who := .late } } }))
        ∧ exec (.memTimeout port tag) s = goes s { e' with bad := r.addr :: e'.bad.filter (· != r.addr) })
    ∧ (tget? s.eng.port.tags k = some r → r.who = .late →
      exec (.memoryResponse port tag err data) s = goes s (bumpSat rCP_PORT_ERR 15 0 1 e)
      ∧ exec (.memTimeout port tag) s = .next s)
    ∧ (∀ tc idx seen, tget? s.eng.port.tags k = some r → r.write = true → r.who = .status tc idx →
      (ten s.eng tc).ring.inflight = [{ idx := idx, seen := seen, vec := none }] →
      exec (.memoryResponse port tag err data) s = goes s (setReg (rCP_SRING_TAIL tc) ((idx + 1).setWidth 64)
        (modRing tc (fun x => { x with inflight := [] }) (modRing tc (fun x => { x with
          inflight := [{ idx := idx, seen := true, vec := none }] }) e))))

/-- The words of the drain ports. A stash word and a lane word wait as status words for the next stride, the words
of a table of the learn heat entry by entry; a lane report waits as an external event; a block of a TYPE that
is none, or a word with a reserved field set, is discarded as BAD and changes nothing else; without a credit a
word is lost and counted. With no block waiting on the port, its credit is back at once. -/
def Obligations.DrainWordsWaitForTheirStride : Prop :=
  ∀ (s : State) (q : Quad) (pl : List Byte) (lane : BitVec 6) (t : U64), Free s →
    let e := credited q (seen q s.eng)
    let words (ws : List Word) : Engine := { e with port := { e.port with words := e.port.words ++ ws.map (fun w => (q, w)) } }
    let bad : Engine := credited q (discard 1 q t (seen q s.eng))
    let f64 (i : Nat) : U64 := BitVec.ofNat 64 (fieldAt pl i 8)
    let f32 (i : Nat) : U32 := BitVec.ofNat 32 (fieldAt pl i 4)
    let tag (ty h8 low : Nat) : U64 := BitVec.ofNat 64 (ty * 2 ^ 60 + h8 * 2 ^ 46 + low)
    let lanes (kind h8 : Nat) : U64 := tag 4 h8 (lane.toNat * 2 ^ 40 + kind * 2 ^ 36)
    (tget 128 s.eng.port.crd q.toNat = 0 →
      exec (.stashWord q t pl) s = goes s (drainFault q t (bumpSat rCP_PORT_ERR 47 32 1 s.eng)))
    ∧ (DrainOpen s.eng q →
      (∀ h8 < 256, exec (.stashWord q (tag 3 h8 0) pl) s = goes s (words [.stash (f64 0) (f64 8)]))
      ∧ (∀ h8 < 256, lane.toNat % 4 = q.toNat →
          exec (.laneWord q (lanes 1 h8) pl) s = goes s (words [.region lane.toNat (f32 0)]))
      ∧ (∀ h8 < 256, ∀ k, 3 ≤ k → k ≤ 5 → lane.toNat % 4 = q.toNat →
          exec (.laneReport q (lanes k h8) pl) s
            = goes s { e with sched := { e.sched with ext := e.sched.ext ++ [(e.time.num, .lane k lane.toNat)] } })
      ∧ (∀ h, s.eng.heat.cur = some h →
          (h.done ≠ 0xF → h.rows ≠ [] → tget? h.stepAt lane.toNat = none → lane.toNat % 4 = q.toNat →
            exec (.laneWord q (lanes 2 (heat8 h)) pl) s
              = goes s { words [.step lane.toNat h.stride h.cost h.model] with heat := { e.heat with
                  cur := e.heat.cur.map (fun h => { h with stepAt := tset h.stepAt lane.toNat e.time.num }) } })
          ∧ (∀ n, 1 ≤ n → n ≤ 128 → h.learn = true → (∀ i < n, fieldAt pl (8 * i) 2 < 4096) →
            exec (.amaxWord q (tag 5 (heat8 h) n) pl) s
              = goes s (words ((List.range n).map (fun i => .amax h.num (fieldAt pl (8 * i) 2) (f32 (8 * i + 4)))))
            ∧ exec (.digestWord q (tag 6 (heat8 h) n) pl) s
              = goes s (words ((List.range n).map (fun i =>
                  .digest h.num (fieldAt pl (8 * i) 2) (byteAt pl (8 * i + 2)) (f32 (8 * i + 4)))))))
      ∧ (bits t 63 60 = 0 ∨ 7 ≤ bits t 63 60 → exec (.stashWord q t pl) s = goes s bad)
      ∧ (bits t 63 60 = 3 → bits t 45 0 ≠ 0 ∨ bits t 59 54 ≠ 0 → exec (.stashWord q t pl) s = goes s bad)
      ∧ (bits t 63 60 = 4 → bits t 35 0 ≠ 0 ∨ bits t 59 54 ≠ 0 ∨ bits t 39 36 = 0 ∨ 5 < bits t 39 36 →
          exec (.laneWord q t pl) s = goes s bad ∧ exec (.laneReport q t pl) s = goes s bad)
      ∧ (bits t 45 8 ≠ 0 ∨ bits t 59 54 ≠ 0 ∨ bits t 7 0 = 0 ∨ 128 < bits t 7 0 →
          (bits t 63 60 = 5 → exec (.amaxWord q t pl) s = goes s bad)
          ∧ (bits t 63 60 = 6 → exec (.digestWord q t pl) s = goes s bad)))

/-- A logits block of PAIR 0 that passes every check enters its stream: each index is strained and accumulated in
order, the NaN count and the counters follow, and no other stream changes; a block of a heat that is not the
one computing is STRAY. No other block waits on the port, which passes it to its lanes at once (how the turns of
R292 go on is the model's choice, log entry 93). -/
def Obligations.LogitsBlocksAccumulate : Prop :=
  ∀ (s : State) (q : Quad) (tag : U64) (pl : List Byte) (h : Heat) (r : HRow), Free s → DrainOpen s.eng q →
    s.eng.heat.cur = some h → bits tag 63 60 = 1 → bits tag 59 58 = 0 → bits tag 57 55 ≤ 4 → bit tag 0 = false →
    let row := bits tag 45 32
    let vb := bits tag 31 12
    let nv := bits tag 11 1
    1 ≤ nv → nv ≤ nvMax (bits tag 57 55) →
    let h0 := { h with prevBlk := tset h.prevBlk q.toNat (row, vb, nv) }
    let e0 := { s.eng with heat := { s.eng.heat with cur := some h0 } }
    let e := credited q { e0 with port := { e0.port with buf := tdel e0.port.buf q.toNat } }
    let st := streamAt h row 0
    (bits tag 53 46 = heat8 h → row < h.nrows → rowAt h row = some r → r.logits = true → vb + nv ≤ h.vocab →
      (st.at q.toNat).last = false → h.done.getLsbD q.toNat = false → (st.at q.toNat).part.count + nv ≤ h.vocab →
      bit tag 54 = false →
      let p := accGo e r (accCfg e h0 r 0) (bits tag 57 55) pl nv vb (st.at q.toNat).part
      let nan := p.nNan - (st.at q.toNat).part.nNan
      let turn := drrTurn e q.toNat [r.tc]
      let e1 := { e with
        port := { e.port with drr := tset e.port.drr q.toNat (turn.1, turn.2 - 1) },
        heat := { e.heat with cur := some { h0 with
          streams := h.streams.filter (fun x => x.row != row || x.pair != 0)
            ++ [st.put q.toNat { seen := true, last := false, part := p }] } } }
      exec (.logitsBlock q tag pl) s = goes s (tcount r.tc 4 1024
        (if nan = 0 then e1 else count 2 10 nan (bumpOpen rSPR_VALUES 63 32 nan e1))))
    ∧ (bits tag 53 46 ≠ heat8 h → exec (.logitsBlock q tag pl) s = goes s (credited q (discard 0 q tag e0)))

/-- Step-done, partials and done markers. A step-done of the heat computing marks its port done with its version
and, with no block waiting on the port, is the port's own marker; a partial that was sent merges into its row at the home
quadrant, or, of a draft round that is over or with more values than the row lacks, is discarded as EXCESS; a done marker
is entered once, when its sender is done. A message whose route has a link down does not arrive (R28). What waits at its sender goes when a flight has arrived (that
a message is one flit of the credits of R30 is the model's choice, log entry 102). -/
def Obligations.StepDonePartialsAndMarkers : Prop :=
  ∀ (s : State) (q d : Quad) (wver : U16) (h : Heat), Free s → s.eng.heat.cur = some h →
    let tag : U64 := BitVec.ofNat 64 (2 * 2 ^ 60 + heat8 h * 2 ^ 46 + wver.toNat * 2 ^ 30)
    let put (h' : Heat) : Engine := { s.eng with heat := { s.eng.heat with cur := some h' } }
    (DrainOpen s.eng q → h.done.getLsbD q.toNat = false → h.done ||| 1#4 <<< q.toNat ≠ 0xF →
      NoJudgement { h with markers := h.markers ++ [(q, q)] } →
      exec (.stepDone q tag) s = goes s (credited q (put { h with
        prevBlk := tdel h.prevBlk q.toNat, done := h.done ||| 1#4 <<< q.toNat, wvers := h.wvers ++ [(q, wver)],
        markers := h.markers ++ [(q, q)] })))
    ∧ (h.done.getLsbD q.toNat = true → (q, d) ∉ h.markers → s.eng.heat.flights = [] → bufOf s.eng q.toNat = [] →
      reach s.eng q.toNat d.toNat = true → NoJudgement { h with markers := h.markers ++ [(q, d)] } →
      exec (.doneMarker q d) s = goes s (put { h with markers := h.markers ++ [(q, d)] }))
    ∧ ((q, d) ∈ h.markers ∨ reach s.eng q.toNat d.toNat = false → exec (.doneMarker q d) s = .next s)
    ∧ (∀ (row : RowNo) (pair : BitVec 2), reach s.eng q.toNat (row.toNat % 4) = false →
        exec (.partialArrival q row pair) s = .next s)
    ∧ (∀ (row : RowNo) (pair : BitVec 2) (f : Flight) (rest : List Flight) (r : HRow),
        s.eng.heat.flights = f :: rest → f.src = q → f.row = row.toNat → f.pair = pair.toNat → f.sent = true →
        reach s.eng q.toNat (row.toNat % 4) = true → rowAt h row.toNat = some r →
        let st := streamAt h row.toNat pair.toNat
        let e := { s.eng with heat := { s.eng.heat with flights := sendMore [] rest } }
        let past : Prop := pair = 2 ∧ ∀ x, roundOn s.eng r = some x → x.2.1 ≠ f.node
        (¬ past → st.merged.count + f.part.count ≤ h.vocab →
          exec (.partialArrival q row pair) s = goes s (setStream { st with
            merged := mergePart (accCfg e h r pair.toNat).cap st.merged f.part } e))
        ∧ (past ∨ h.vocab < st.merged.count + f.part.count →
          exec (.partialArrival q row pair) s = goes s (rowFault row.toNat (bumpSat rSPR_DRAIN_ERR 31 16 1 e))))

/-- TOKEN_RECORD_ISSUE of a complete decode row of a GREEDY request: the index of largest z is the token; the
request counts it, its window takes it and its KV position follows; the row's one record goes out on its home
manifest port. -/
def Obligations.CompleteRowsIssueTheirToken : Prop :=
  ∀ (s : State) (row : RowNo) (h : Heat) (r : HRow) (slot : Nat) (q : Req) (c : Cand), Free s →
    s.eng.heat.cur = some h → rowAt h row.toNat = some r → r.row = row.toNat → r.kind = 1 → NoJudgement h →
    Plain s.eng slot q r → r.d.greedy = true → rowComplete h r = true →
    let p := (streamAt h row.toNat 0).merged
    p.accS ≠ 0 → p.maxZ = some c → p.clamp = false →
    ∃ t q', exec (.tokenRecordIssue row) s = .next t ∧ t.pending = s.pending ∧ reqAt t.eng slot = some q'
      ∧ q'.e.gen = q.e.gen + 1 ∧ q'.e.st = .running ∧ q'.e.kvpos = ctxOf q ∧ q'.d = q.d
      ∧ q'.w.window = lastWin (q.w.window ++ [BitVec.ofNat 24 c.idx])
      ∧ (∀ k, k ≠ slot → reqAt t.eng k = reqAt s.eng k) ∧ t.eng.mem = s.eng.mem ∧ t.eng.rq.parked = s.eng.rq.parked
      ∧ unitsOf t.eng (row.toNat % 4) = unitsOf s.eng (row.toNat % 4) ++ [recUnit (le 4 r.rid.toNat ++ le 1 r.tc ++ [0]
          ++ le 3 c.idx ++ [0] ++ le 2 h.pver.toNat ++ le 4 0
          ++ le 4 (2 ^ 30 * b2n r.fbk + 2 ^ 29 * b2n s.eng.pwr.vwarnNow + 2 ^ 28 * b2n q.w.repinTok + (q.e.gen + 1))
          ++ le 4 (s.eng.time.num.toNat % 2 ^ 32) ++ le 8 s.eng.time.stamp.toNat)]
      ∧ (∀ p, p ≠ row.toNat % 4 → mpOf t.eng p = mpOf s.eng p)

/-- VERIFY_ITEM of a complete chain item of a GREEDY request with one draft node that is not the index of largest
z: the draft is rejected, the item issues that index as its one token, and the held draft goes. Of memory only the
512 bytes of the slot's draft state change (their contents are free values: the model's choice, log entry 118). -/
def Obligations.VerifyItemsIssueTheirTokens : Prop :=
  ∀ (s : State) (row : RowNo) (h : Heat) (r f : HRow) (slot : Nat) (q : Req) (c : Cand) (cs : List Cand), Free s →
    s.eng.heat.cur = some h → h.rows = [r, f] → r.row = row.toNat → f.row ≠ r.row → r.lead = r.row → f.lead = r.row →
    r.kind = 3 → f.kind = 5 → f.parent = r.node → r.draft = 1 → (∀ x < 4, allMarkers h x = false) →
    Plain s.eng slot q r → r.d.greedy = true → rowComplete h r = true → rowComplete h f = true →
    let p := (streamAt h row.toNat 0).merged
    let p1 := (streamAt h row.toNat 1).merged
    p.accS ≠ 0 → p1.accS ≠ 0 → p.maxZ = some c → p.clamp = false → p.cands = c :: cs → f.tokn.toNat ≠ c.idx →
    lqDiffers p1 f = false → r.d.topk = 0 → r.d.minp = 0 → r.d.topp = 0 → p.count - p.excl ≤ candCap h.nrows →
    ∃ t q', exec (.verifyItem row) s = .next t ∧ t.pending = s.pending ∧ reqAt t.eng slot = some q'
      ∧ q'.e.gen = q.e.gen + 1 ∧ q'.w.window = lastWin (q.w.window ++ [BitVec.ofNat 24 c.idx])
      ∧ q'.w.draft = { Draft.empty with pkv := r.pos + 1 }
      ∧ (∀ k, k ≠ slot → reqAt t.eng k = reqAt s.eng k)
      ∧ (memWf s.eng.mem = true → ∀ a, a < draftAt s.eng slot ∨ draftAt s.eng slot + 512 ≤ a →
          memGet t.eng.mem a = memGet s.eng.mem a)
      ∧ (unitsOf t.eng (row.toNat % 4)).length = (unitsOf s.eng (row.toNat % 4)).length + 2
      ∧ (unitsOf t.eng (row.toNat % 4)).take ((unitsOf s.eng (row.toNat % 4)).length + 1)
        = unitsOf s.eng (row.toNat % 4) ++ [recUnit (le 4 r.rid.toNat ++ le 1 r.tc ++ [0x41, 1, 0, 0, 1] ++ zeros 2
            ++ zeros 8 ++ le 4 (s.eng.time.num.toNat % 2 ^ 32) ++ le 8 s.eng.time.stamp.toNat)]

/-- DRAFT_ROUND of a complete round of a GREEDY request that has room for one more node: the expanded node has the
index of largest z as its one child, and its result record, with DONE, goes out. Of memory only the 512 bytes of the
slot's draft state change (their contents are free values: the model's choice, log entry 118). -/
def Obligations.DraftRoundsGrowTheDraft : Prop :=
  ∀ (s : State) (slot : U16) (h : Heat) (r : HRow) (q : Req) (n : Nat) (c : Cand), Free s →
    s.eng.heat.cur = some h → NoJudgement h → reqAt s.eng slot.toNat = some q →
    reqByUid s.eng q.w.uid = some (some slot.toNat, q) → r.uid = q.w.uid → r.row = q.w.draft.lead → r.kind ≠ 0 →
    h.rows.find? (fun x => x.uid == q.w.uid && x.row == q.w.draft.lead && x.kind != 0) = some r →
    q.w.draft.round = some (n, 1) → q.d.greedy = true → nMax s.eng q.d = q.w.draft.nodes.length + 1 →
    let p := (streamAt h r.row 2).merged
    p.count = h.vocab → p.accS ≠ 0 → p.maxZ = some c →
    let dr := q.w.draft
    ∃ t q' x, exec (.draftRound slot) s = .next t ∧ t.pending = s.pending ∧ reqAt t.eng slot.toNat = some q'
      ∧ q'.e = q.e ∧ q'.d = q.d ∧ q'.w.draft.round = none ∧ q'.w.draft.nodes.length = dr.nodes.length + 1
      ∧ q'.w.draft.nodes.getLast? = some x ∧ x.tok = BitVec.ofNat 24 c.idx ∧ x.parent = n
      ∧ x.depth = nodeDepth dr.nodes n + 1 ∧ x.expanded = false
      ∧ (∀ k, k ≠ slot.toNat → reqAt t.eng k = reqAt s.eng k)
      ∧ (memWf s.eng.mem = true → ∀ a, a < draftAt s.eng slot.toNat ∨ draftAt s.eng slot.toNat + 512 ≤ a →
          memGet t.eng.mem a = memGet s.eng.mem a)
      ∧ unitsOf t.eng (r.row % 4) = unitsOf s.eng (r.row % 4) ++ [recUnit (le 4 q.d.rid.toNat ++ le 1 q.tc ++ [0x51]
          ++ le 1 (128 + n) ++ le 1 (dr.nodes.length + 1) ++ padTo 24 (le 3 c.idx))]

/-- WALK_EFFECT of the one walk that is due, of a new request in an index that holds no node: nothing is reused,
and the KV of the request is ready with its position at 0; past the walk's effect stride the stride is a break of cause
KV_LATE. A walk whose reads are not yet answered waits. -/
def Obligations.WalksTakeEffect : Prop :=
  ∀ (s : State) (slot : U16) (r : Req) (w : Walk), Strides s → s.eng.rq.slots = [(slot.toNat, r)] → r.w.walk = some w →
    w.due = true →
    (walkReads s.eng slot.toNat = true → exec (.walkEffect slot) s = .next s)
    ∧ (walkReads s.eng slot.toNat = false → w.resume = false → s.eng.kv.nodes = [] → s.eng.kv.orders = [] →
        s.eng.bad = [] → r.e.st = .admitted → r.w.table = [] →
      ∃ t, exec (.walkEffect slot) s = .next t ∧ t.pending = s.pending
        ∧ reqAt t.eng slot.toNat = some { r with
            e := { r.e with kvpos := 0 },
            w := { r.w with walk := none, prefixHit := 0, priv := false, kvReady := true } }
        ∧ t.eng.sched = (if w.eff = s.eng.time.num then s.eng.sched
            else { s.eng.sched with brk := s.eng.sched.brk ||| 0b001000 })
        ∧ t.eng.kv = s.eng.kv ∧ t.eng.time = s.eng.time ∧ t.eng.heat = s.eng.heat ∧ t.eng.flt = s.eng.flt
        ∧ t.eng.port = s.eng.port ∧ t.eng.mem = s.eng.mem)

/-- What peers say of themselves. A BEACON of a present peer that has not moved renews its last stamp, and in a new stamp
epoch the peer's offset is unknown and measured again (R49); one of an unknown engine waits as an arrival, or with no
free entry is refused; a DEPART of a present peer waits as a departure; a message that fails a check, and one lost for
want of a credit, is counted and changes nothing else (a BEACON of an unknown engine with another CVER is refused too:
deduced, log entry 97). -/
def Obligations.BeaconsAndDeparturesAreHeard : Prop :=
  ∀ (s : State) (m pl : List Byte) (src : U32), inService s.eng = true →
    let e := heard m s.eng
    let role : BitVec 2 := BitVec.ofNat 2 (byteAt pl 4)
    let tray : U32 := BitVec.ofNat 32 (fieldAt pl 8 4)
    let waits (x : ExtEv) : Host.Outcome State Fault Refusal :=
      goes s { e with sched := { e.sched with ext := e.sched.ext ++ [(e.time.num, x)] } }
    let lost (e : Engine) : Engine := count 2 13 1 (bumpSat rCP_RELAY_STAT 63 48 1 e)
    (∀ i p, IsMsg s.eng m 1 src pl → peerAt s.eng src = some (i, p) → p.tray = tray → p.role = role →
      let p' : Peer := { p with lastBeacon := s.eng.time.stamp }
      (p.epoch = epochOf m →
        exec (.beacon m) s = goes s { e with relay := { e.relay with peers := tset e.relay.peers i p' } })
      ∧ (p.epoch ≠ epochOf m → ∃ t, exec (.beacon m) s = .next t ∧ t.pending = s.pending
        ∧ peerAt t.eng src = some (i, { p' with epoch := epochOf m, ofs := none })
        ∧ (Rising s.eng.relay.peers → ∀ x, x ≠ src → peerAt t.eng x = peerAt s.eng x)
        ∧ t.eng.relay.out.length = s.eng.relay.out.length + 16 ∧ t.eng.sched = s.eng.sched))
    ∧ (IsMsg s.eng m 1 src pl → peerAt s.eng src = none → arriving s.eng src = false →
      (src ≠ myId s.eng → s.eng.relay.peers.length + arrivals s.eng < 256 →
        exec (.beacon m) s = waits (.arrive src tray role (BitVec.ofNat 8 (byteAt pl 1)) (BitVec.ofNat 8 (byteAt pl 2))
          (BitVec.ofNat 8 (byteAt pl 3)) s.eng.time.stamp (epochOf m)))
      ∧ (src = myId s.eng ∨ 256 ≤ s.eng.relay.peers.length + arrivals s.eng →
        exec (.beacon m) s = goes s (bumpSat rCP_RELAY_STAT 47 32 1 e)))
    ∧ (IsMsg s.eng m 5 src pl → (peerAt s.eng src).isSome = true → exec (.depart m) s = waits (.leave src 1))
    ∧ (flitsOf m ≤ s.eng.relay.crd → relayForm s.eng m = false ∨ relayOn s.eng = false →
      exec (.discardedRelayMessage m true) s = goes s (lost e))
    ∧ (flitsOf m ≤ s.eng.relay.crd → relayForm s.eng m = true → relayOn s.eng = true → byteAt m 26 ≠ 4 →
        BitVec.ofNat 32 (fieldAt m 4 4) = src → peerAt s.eng src = none →
      exec (.discardedRelayMessage m true) s
        = goes s (if byteAt m 1 = 1 then bumpSat rCP_RELAY_STAT 47 32 1 (lost e) else lost e))
    ∧ (s.eng.relay.crd < flitsOf m → exec (.discardedRelayMessage m true) s = goes s (lost s.eng))
    ∧ exec (.discardedRelayMessage m false) s = goes s (count 2 13 1 (bumpSat rCP_RELAY_STAT 63 48 1 s.eng))

/-- What the engine says to its peers. Every beacon interval it broadcasts a BEACON; a PROBE of a present peer is
answered with its index, its stamp and this engine's; a probe round sends 16 probes; a reply of a round under
way, in the epochs of its round, is kept with its delay and offset; a peer silent for 3,000,000 ns leaves alone while
another peer of its tray is heard, and its whole tray is lost otherwise; before that its timer does nothing (that the
timer is a command of its own is the model's choice, log entry 79). -/
def Obligations.BeaconsProbesAndSilentPeers : Prop :=
  ∀ (s : State) (m pl : List Byte) (src : U32) (i : Nat) (p : Peer), inService s.eng = true →
    let e := s.eng
    let now := e.time.stamp
    exec .beaconInterval s = goes s (relaySend 1 0xFFFFFFFF#32 (beaconBytes e) e)
    ∧ (relayOn e = false → ∀ d k x, relaySend k d x e = e)
    ∧ (IsMsg e m 2 src pl → peerAt e src = some (i, p) → p.epoch = epochOf m →
      exec (.probe m) s = goes s (relaySend 3 src
        (pl.take 1 ++ zeros 7 ++ (pl.drop 8).take 8 ++ le 8 now.toNat ++ le 8 now.toNat) (heard m e)))
    ∧ (relayOn e = true → peerAt e src = some (i, p) →
      ∃ t, exec (.offsetProbeRound src) s = .next t ∧ t.pending = s.pending
        ∧ t.eng.relay.rounds = e.relay.rounds.filter (fun y => y.peer != src) ++ [{
            peer := src, epoch := e.time.epoch, peerEpoch := p.epoch, sent := (List.range 16).map (fun i => (i, now)),
            kept := [], answered := 0 }]
        ∧ t.eng.relay.out.length = e.relay.out.length + 16 ∧ t.eng.relay.seq = e.relay.seq + 16
        ∧ t.eng.relay.peers = e.relay.peers
        ∧ { t.eng with relay := e.relay, cnt := e.cnt } = e)
    ∧ (peerAt e src = none → exec (.offsetProbeRound src) s = .next s)
    ∧ (∀ r t1, IsMsg e m 3 src pl → peerAt e src = some (i, p) → e.relay.rounds.find? (fun r => r.peer == src) = some r →
        tget? r.sent (byteAt pl 0) = some t1 → fieldAt pl 8 8 = t1.toNat → r.answered < 15 → r.epoch = e.time.epoch →
        r.peerEpoch = epochOf m → p.epoch = epochOf m →
      ∃ e', e' = heard m e ∧ exec (.probeReply m) s = goes s { e' with relay := { e'.relay with
        rounds := e.relay.rounds.filter (fun y => y.peer != src) ++ [{ r with
          sent := tdel r.sent (byteAt pl 0),
          kept := r.kept ++ [(((now.toNat : Int) - t1.toNat) - ((fieldAt pl 24 8 : Int) - fieldAt pl 16 8),
            (((fieldAt pl 16 8 : Int) - t1.toNat) + ((fieldAt pl 24 8 : Int) - now.toNat)).tdiv 2)],
          answered := r.answered + 1 }] } })
    ∧ (peerAt e src = some (i, p) →
      let fresh := e.relay.peers.any (fun x => x.2.tray == p.tray && x.2.id != src
        && decide ((now - x.2.lastBeacon).toNat < 2000000))
      ((now - p.lastBeacon).toNat < 3000000 → exec (.peerDepartureTimer src) s = .next s)
      ∧ (3000000 ≤ (now - p.lastBeacon).toNat →
        exec (.peerDepartureTimer src) s = goes s { e with sched := { e.sched with ext := e.sched.ext ++ [(e.time.num,
          if fresh then .leave src 0
          else .trayLoss p.tray ((e.relay.peers.filter (fun x => x.2.tray == p.tray)).map (·.2.id)))] } }))

/-- A Baton message of a present peer waits as an external event; an expired Baton of the number is given up with
ABORT. What a REFUSE, an ABORT and a COMPLETE do at their stride, on the engine that offered: REFUSE and ABORT return the
request to RUNNING and count a failure; COMPLETE ends it as FINISHED with REASON 4 and counts the Baton; a
COMPLETE of an unknown Baton counts as late and does nothing else (what a COMPLETE does is deduced, log entry 78). An
OFFER for a context that is not open is refused with code 1. -/
def Obligations.BatonMessages : Prop :=
  (∀ (s : State) (m pl : List Byte) (src num : U32) (b : Baton), inService s.eng = true →
      (∀ i p, IsMsg s.eng m 4 src pl → peerAt s.eng src = some (i, p) → p.epoch = epochOf m →
        ∃ e, e = { heard m s.eng with sched := { s.eng.sched with
            ext := s.eng.sched.ext ++ [(s.eng.time.num, .baton src pl)] } }
          ∧ ∀ c ∈ [Instr.offer m, .accept m, .refuse m, .complete m, .abort m], exec c s = goes s e)
      ∧ (s.eng.kv.batons.filter (fun x => x.num == num && batonOver s.eng x) = [b] →
        exec (.batonTimeout num) s = goes s (batonAbort b s.eng))
      ∧ ((∀ x ∈ s.eng.kv.batons, x.num = num → batonOver s.eng x = false) → exec (.batonTimeout num) s = .next s))
  ∧ (∀ (e : Engine) (src : U32) (m : List Byte) (b : Baton) (r : Req),
      let num : U32 := BitVec.ofNat 32 (fieldAt m 4 4)
      (byteAt m 0 = 4 → batonAt e true num src = none → batonIn src m e = bumpSat rIDX_BSTAT 47 32 1 e)
      ∧ (byteAt m 0 = 1 → isOpen e (byteAt m 2) = false → batonIn src m e = relaySend 4 src
          (le 1 3 ++ le 1 1 ++ le 1 (byteAt m 2) ++ [0] ++ le 4 num.toNat ++ le 4 (myId e).toNat ++ le 4 src.toNat
            ++ zeros 48) e)
      ∧ (batonAt e true num src = some b → reqAt e b.slot = some r → r.e.st = .handedOff →
          r.w.baton = some b.num.toNat →
        (byteAt m 0 = 3 ∨ byteAt m 0 = 5 ∧ e.kv.batons.filter (fun x => x.num == num && x.peer == src) = [b] →
          ∃ e', e' = batonIn src m e ∧ batonAt e' true num src = none
          ∧ reqAt e' b.slot = some { r with e := { r.e with st := .running }, w := { r.w with baton := none } }
          ∧ (∀ k, k ≠ b.slot → reqAt e' k = reqAt e k) ∧ e'.mem = e.mem
          ∧ (∀ p, reg e' p = reg (bumpSat rIDX_BSTAT 63 48 1 e) p))
        ∧ (byteAt m 0 = 4 → ∃ e' r', e' = batonIn src m e ∧ batonAt e' true num src = none
          ∧ reqAt e' b.slot = some r' ∧ r'.e.st = .finished ∧ r'.e.reason = 4 ∧ r'.w.holdEnd = some (e.time.num + 64)
          ∧ (∀ k, k ≠ b.slot → reqAt e' k = reqAt e k) ∧ e'.mem = e.mem
          ∧ (∀ p, reg e' p = reg (bumpSat rIDX_BSTAT 15 0 1 e) p))))

/-- FAULT_REPORT of a unit that exists counts the report, opens a record for a new class and root in the first free index
of the quadrant that records it, and registers the containment of its scope for the next stride; a second report of a
record whose window is open only counts in it and registers its containment. The root is the HADDR of the site, its cell
or entry, and the first reporter the tile that holds it, or of QUAD_OUT the Pacer (a flop state's level is deduced, log
entry 96; the window's end, log entry 79). The packet that a failed sequencer was carrying out is answered INTERNAL and
goes. A global unit outside Q0 and an entry past its tile report nothing. -/
def Obligations.FaultReportsOpenRecords : Prop :=
  ∀ (s : State) (c : FaultClass) (tc : U8) (obj : FaultObj) (site : Site) (d : U64), inService s.eng = true →
    let e := s.eng
    let root := siteRoot site
    let rep := if c = .quadOut then (e.lead.pacer.map (fun p => hQuad p.toNat)).getD root else siteReporter site
    let detail := detailFor c d
    let sc := scopeOf c tc.toNat false
    let due := if sc = 0 ∨ sc = 2 then e.flt.due else e.flt.due ++ [{ cls := c, tc := tc, obj := siteObj c site obj e }]
    let ext := if sc = 2 then e.sched.ext ++ [(e.time.num, .teardown tc c)] else e.sched.ext
    (siteExists site = false → ∀ p, exec (.faultReport c tc obj site d p) s = .next s)
    ∧ (∀ (q : Quad) (i : BitVec 2) (tc' : U8) (ridx : U32) (a : Acc) (e1 : Engine),
        (ten e1 tc'.toNat).ring.accepted.find? (fun a => a.h.ridx == ridx) = some a → (∀ m n x, a.cmd ≠ .planLoad m n x) →
        exec (.faultReport .sqCheck tc obj (.tile ⟨q, .sq i⟩) d none) s = goes s e1 →
        exec (.faultReport .sqCheck tc obj (.tile ⟨q, .sq i⟩) d (some (tc', ridx))) s
          = goes s (reply a.h a.cmd.code 0xFF 0 (modRing tc'.toNat (fun r => { r with
              accepted := r.accepted.filter (fun a => a.h.ridx != ridx) }) e1)))
    ∧ (Waits c → siteExists site = true → siteFits c site = true → ∀ k,
      e.flt.recs.find? (fun r => r.2.cls == c && r.2.root == root && r.2.opened) = none →
      recPlace e.flt.recs (recHome e root rep) = some k →
      ∃ t, exec (.faultReport c tc obj site d none) s = .next t ∧ t.pending = s.pending
        ∧ t.eng.flt.recs = tset e.flt.recs k {
            cls := c, scope := sc, tc := tc, opened := true, count := 1, root := root, reporter := rep, fstr := e.time.num,
            lstr := e.time.num, epoch := e.time.epoch, first := e.time.stamp, last := e.time.stamp, detail := detail,
            ord := e.flt.recNo }
        ∧ regN t.eng rFLT_STAT 63 32 = regN (bumpOpen rFLT_STAT 63 32 1 e) rFLT_STAT 63 32
        ∧ t.eng.flt.due = due ∧ t.eng.sched.ext = ext ∧ t.eng.mem = e.mem ∧ t.eng.rq = e.rq ∧ t.eng.lead = e.lead)
    ∧ (Waits c → siteExists site = true → siteFits c site = true → ∀ k r,
      e.flt.recs.find? (fun r => r.2.cls == c && r.2.root == root && r.2.opened) = some (k, r) →
      (∀ x ∈ e.flt.recs, x.2.cls = c → x.2.root = root → x.2.opened = true → recLive e x.2 = true) →
      ∃ t, exec (.faultReport c tc obj site d none) s = .next t ∧ t.pending = s.pending
        ∧ t.eng.flt.recs = tset e.flt.recs k { r with
            count := BitVec.ofNat 32 (satAdd 32 r.count.toNat 1), lstr := e.time.num, last := e.time.stamp }
        ∧ regN t.eng rFLT_STAT 63 32 = regN (bumpOpen rFLT_STAT 63 32 1 e) rFLT_STAT 63 32
        ∧ t.eng.flt.due = due ∧ t.eng.sched.ext = ext ∧ t.eng.mem = e.mem ∧ t.eng.rq = e.rq ∧ t.eng.lead = e.lead)

/-- Containment, while no entry to SLEEP or deeper has ended the work of strides. Of an object fault: its request fails with REASON 9 and a hold of 64 strides; of an engine fault
outside HOLD: the engine is in HOLD with cause FAULT and every quadrant has taken a snapshot; of a tenant
fault, at a stride after the one at which it registered: the context is TORN with the class, its requests have ended and
its ring is disabled, and TC0 or a context that is not open is left alone; a teardown that nothing has registered is
registered for the next stride, and one of this stride waits for it. -/
def Obligations.FaultsAreContained : Prop :=
  ∀ (s : State) (tc : U8) (slot : U16) (r : Req) (n : Stride), inService s.eng = true → entryDeep s.eng = false →
    let e := s.eng
    let open_ : Bool := isOpen e tc.toNat && tc != 0
    let registered (x : Option (Stride × ExtEv)) : Prop :=
      e.sched.ext.find? (fun x => x.2 == .teardown tc .eccTenant) = x
    let drop (c : Contain) : Engine := { e with flt := { e.flt with due := e.flt.due.erase c } }
    (reqAt e slot.toNat = some r → terminal r.e.st = false →
      exec (.faultContainment .eccObject tc (.slot slot)) s
        = goes s (modReq slot.toNat (fun r => if terminal r.e.st then r else { r with
            e := { r.e with st := .failed, reason := 9, seq := 0 },
            w := { r.w with walk := none, holdEnd := some (e.time.num + 64), freeNext := false, pauseDue := none,
                            draft := { Draft.empty with pkv := r.w.draft.pkv } } })
            (drop { cls := .eccObject, tc := tc, obj := .slot slot })))
    ∧ (inHold e = false → ∃ e', e' = drop { cls := .eccEngine, tc := tc, obj := .none }
        ∧ exec (.faultContainment .eccEngine tc .none) s = goes s (hangSnap 2 3 (hangSnap 2 2 (hangSnap 2 1 (hangSnap 2 0
            { e' with flt := { e'.flt with fault := true } })))))
    ∧ (open_ = true → registered (some (n, .teardown tc .eccTenant)) → n ≠ e.time.num →
      ∃ t, exec (.tenantTeardown tc .eccTenant) s = .next t ∧ t.pending = s.pending
        ∧ (ten t.eng tc.toNat).st = .torn ∧ (ten t.eng tc.toNat).fclass = 0x03
        ∧ (ten t.eng tc.toNat).ring.accepted = [] ∧ regB t.eng (rCP_RING_CTRL tc.toNat) 0 = false
        ∧ (∀ p ∈ t.eng.rq.slots, p.2.tc = tc.toNat → terminal p.2.e.st = true)
        ∧ t.eng.time = e.time ∧ t.eng.lead = e.lead)
    ∧ (open_ = false → registered (some (n, .teardown tc .eccTenant)) → n ≠ e.time.num →
      exec (.tenantTeardown tc .eccTenant) s
        = goes s { e with sched := { e.sched with ext := e.sched.ext.erase (n, .teardown tc .eccTenant) } })
    ∧ (registered (some (e.time.num, .teardown tc .eccTenant)) → exec (.tenantTeardown tc .eccTenant) s = .next s)
    ∧ (registered none → exec (.tenantTeardown tc .eccTenant) s
        = goes s { e with sched := { e.sched with ext := e.sched.ext ++ [(e.time.num, .teardown tc .eccTenant)] } })

/-- The end of a record's coalescing closes it, with a trace record, once FLT_CTRL.WIN microseconds have passed (0 counts
as 1); the end of a class's 10 us raises its held interrupt once; an index without an open record, a record whose window
is open, a class without a held interrupt and one that raised less than 10 us ago are left alone. A link that gives up is
down, and both its ends report STITCH_LINK for the next stride (that both report is deduced, log entry 22). A quadrant
whose images have all been read again without error leaves its reset with the links at its sides up, its plan share and
its policy fields, and is a copy of the replicated content (deduced, log entry 23); one not in reset, one whose reads are
out, and one that no quadrant of the quorum can copy to is left alone. -/
def Obligations.FaultRecordsCloseAndLinksReturn : Prop :=
  (∀ (s : State) (q : Quad) (index : Nat) (r : FRec) (c : FaultClass), inService s.eng = true →
      let e := s.eng
      let k := q.toNat * 448 + index
      let past (r : FRec) : Prop := r.epoch = e.time.epoch
        → 1000 * max 1 (regN e rFLT_CTRL 15 0) ≤ (e.time.stamp - r.first).toNat
      (index < 448 → tget? e.flt.recs k = some r → r.opened = true → past r →
        exec (.faultRecordClose q index) s = goes s (tracePush 5 (faultTrace { r with opened := false })
          { e with flt := { e.flt with recs := tset e.flt.recs k { r with opened := false } } }))
      ∧ (448 ≤ index ∨ tget? e.flt.recs k = none ∨ (tget? e.flt.recs k = some r ∧ (r.opened = false ∨ ¬ past r)) →
        exec (.faultRecordClose q index) s = .next s)
      ∧ (e.flt.heldRaise.contains c = true → (∀ x ∈ e.flt.raised, x.1 = c → 10000 ≤ (e.time.stamp - x.2).toNat) →
        exec (.faultInterruptRelease c) s = goes s (raiseVec (.pv (BitVec.ofNat 5 (regN e rFLT_CTRL 28 24)))
          { e with flt := { e.flt with
            heldRaise := e.flt.heldRaise.filter (· != c),
            raised := e.flt.raised.filter (fun x => x.1 != c) ++ [(c, e.time.stamp)] } }))
      ∧ (e.flt.heldRaise.contains c = false ∨ (∃ x ∈ e.flt.raised, x.1 = c ∧ (e.time.stamp - x.2).toNat < 10000) →
        exec (.faultInterruptRelease c) s = .next s))
  ∧ (∀ (s : State) (q src : Quad) (x : Reload), inService s.eng = true →
      let e := s.eng
      let c : Contain := { cls := .stitchLink, tc := 0, obj := .quad q }
      (∃ t, exec (.stitchLinkError q) s = .next t ∧ t.pending = s.pending
        ∧ t.eng.lead = { e.lead with linkUp := e.lead.linkUp &&& ~~~(1#4 <<< q.toNat) }
        ∧ t.eng.flt.due = e.flt.due ++ [c, c] ∧ t.eng.mem = e.mem ∧ t.eng.rq = e.rq ∧ t.eng.time = e.time)
      ∧ (e.lead.reload.find? (fun x => x.quad == q) = some x → e.lead.resetQ.getLsbD q.toNat = true → x.reads = 0 →
        x.err = false → (e.lead.quorum &&& e.lead.replOk &&& ~~~e.lead.resetQ).getLsbD src.toNat = true →
        (∀ i ∈ e.images, imageGood e i = true) →
        ∃ t, exec (.quadrantRejoin q src) s = .next t ∧ t.pending = s.pending
          ∧ t.eng.lead = { e.lead with
              resetQ := e.lead.resetQ &&& ~~~(1#4 <<< q.toNat),
              linkUp := e.lead.linkUp ||| 1#4 <<< q.toNat ||| 1#4 <<< ((q.toNat + 3) % 4),
              replOk := e.lead.replOk ||| 1#4 <<< q.toNat, reload := e.lead.reload.filter (fun x => x.quad != q) }
          ∧ t.eng.plans.pf = e.plans.pf ||| 1#4 <<< q.toNat
          ∧ ((∀ m ∈ e.models, ∀ p ∈ m.2.plans, p < 4096) →
              ∀ p, p < 4096 → p % 4 ≠ q.toNat → planAt t.eng p = planAt e p)
          ∧ t.eng.mem = e.mem ∧ t.eng.rq = e.rq ∧ t.eng.time = e.time ∧ t.eng.flt = e.flt)
      ∧ (e.lead.resetQ.getLsbD q.toNat = false ∨ e.lead.reload.find? (fun x => x.quad == q) = none
          ∨ (e.lead.reload.find? (fun x => x.quad == q) = some x ∧ x.reads ≠ 0)
          ∨ (e.lead.quorum &&& e.lead.replOk &&& ~~~e.lead.resetQ).getLsbD src.toNat = false →
        exec (.quadrantRejoin q src) s = .next s))

/-- The stride watchdog takes a snapshot of every quadrant, only while it is set, strides have begun and the
engine is in RUN or STOP; a PC sample of an enabled sequencer leaves as a record with the HADDR of the unit it waits on;
a trace frame of the oldest records goes out on the eight lanes, block k on lane k mod 8, and a block time without a
record is idle; an alignment marker goes out on every lane and is counted; all of them only while their port is enabled
(the lanes' scrambler is presumed, log entry 104; when a marker comes is deduced, log entry 33). -/
def Obligations.WatchdogSamplesAndTrace : Prop :=
  ∀ (s : State) (sq : U4) (stall : U8) (pc : U16) (qcyc : U32) (on : TileAt), inService s.eng = true →
    let e := s.eng
    let lane (e : Engine) (l : Nat) : List (BitVec 2 × U64) := (tget (TLane.mk (BitVec.allOnes 58) []) e.trace.lanes l).sent
    (regN e rDBG_HANG_CTRL 15 0 ≠ 0 → e.pwr.eng < 2 → e.time.valid = true →
      exec .hangWatchdog s = goes s (hangSnap 1 3 (hangSnap 1 2 (hangSnap 1 1 (hangSnap 1 0 e)))))
    ∧ (regN e rDBG_HANG_CTRL 15 0 = 0 ∨ e.time.valid = false → exec .hangWatchdog s = .next s)
    ∧ (regB e rDBG_PCS_CTRL 31 = true → regB e rDBG_PCS_CTRL sq.toNat = true →
      exec (.pcSample sq stall pc qcyc on) s = goes s (tracePush 3 ([sq.setWidth 8, stall] ++ le 2 pc.toNat
        ++ le 4 qcyc.toNat ++ le 6 e.time.num.toNat ++ zeros 2 ++ le 8 (if stall = 0 ∨ stall = 7 then 0 else (hOf on).toNat)
        ++ le 8 e.time.stamp.toNat) e))
    ∧ (regB e rDBG_PCS_CTRL 31 = false ∨ regB e rDBG_PCS_CTRL sq.toNat = false →
      exec (.pcSample sq stall pc qcyc on) s = .next s)
    ∧ (regB e rDBG_TRACE_CTRL 31 = true → e.trace.queue ≠ [] →
      ∃ f, f = frameBytes (e.trace.queue.take 7) e (crc32c (frameBytes (e.trace.queue.take 7) e 0))
        ∧ exec .traceFrame s = goes s (sendFrame f (setRegF rDBG_TRACE_STAT 31 0 (regN e rDBG_TRACE_STAT 31 0 + 1) { e with
            trace := { e.trace with queue := e.trace.queue.drop 7, fseq := e.trace.fseq + 1, lost := 0,
                                    sent := e.trace.sent ++ [f] } })))
    ∧ (regB e rDBG_TRACE_CTRL 31 = true → e.trace.queue = [] → exec .traceFrame s = goes s (sendIdle e))
    ∧ (regB e rDBG_TRACE_CTRL 31 = true →
      exec .alignmentMarker s = goes s (sendMarkers { e with trace := { e.trace with markers := e.trace.markers + 1 } }))
    ∧ (∀ l < 8,
        (∀ f, (lane (sendFrame f e) l).length = (lane e l).length + 4
          ∧ ∀ x ∈ (lane (sendFrame f e) l).drop (lane e l).length, x.1 = 0b10)
        ∧ (lane (sendIdle e) l).length = (lane e l).length + 1 ∧ (lane (sendMarkers e) l).length = (lane e l).length + 1)
    ∧ (∀ f, { sendFrame f e with trace := e.trace } = e) ∧ { sendIdle e with trace := e.trace } = e
    ∧ { sendMarkers e with trace := e.trace } = e
    ∧ (regB e rDBG_TRACE_CTRL 31 = false → exec .traceFrame s = .next s ∧ exec .alignmentMarker s = .next s)

/-- What reset leaves. Every register of the privileged window reads its number of R409, the identity and build words
among them, and 0 where none is listed here; those whose reset R409 marks X or retained are not claimed but KET_CTRL, whose
value is that of the first VRET. Every register of a tenant page reads its number of R410, every vector is disabled. No stride
has come, no quadrant leads or is in the quorum, none is in reset, the engine is in HOLD and in IDLE, TC0 is open with the
QoS record of R290 and every other context FREE; no request, model, policy image or heat; each drain port has 128 credits,
each manifest port 8, the relay 512, each lane is free. By the model's choice no byte of memory is listed (log entry 1), the
links are up, the seed of TCn is n and the stamp epoch is 0 (log entry 2), and the host has returned 8 beat credits to each
manifest port (log entry 12). -/
def Obligations.ResetStateIsAsStated : Prop :=
  let e := State.reset.eng
  State.reset.pending = [] ∧ e.mem = [] ∧ memWf e.mem = true ∧ Rising e.rq.slots
    ∧ (∀ x ∈ resetNumbers, (regValue x.1 e).1 = BitVec.ofNat 64 x.2)
    ∧ (∀ r ∈ privRegs, r.off ∉ resetNumbers.map (·.1) → r.off ∉ resetOpen → (regValue r.off e).1 = 0)
    ∧ (∀ q : Quad, (regValue (0x40 + 4 * q.toNat) e).1 = q.setWidth 64)
    ∧ (∀ tc : U8, (∀ x ∈ pageNumbers, (regValue (page tc.toNat x.1) e).1 = BitVec.ofNat 64 x.2)
        ∧ (regValue (page tc.toNat 0x80) e).1 = tc.setWidth 64
        ∧ (regValue (page tc.toNat 0x30) e).1 = (if tc = 0 then 1 else 0)
        ∧ ∀ r ∈ pageRegs, r.off ∉ [0x30, 0x80] → r.off ∉ pageNumbers.map (·.1) → (regValue (page tc.toNat r.off) e).1 = 0)
    ∧ (∀ (v : VecId) (w : Nat), w = 0 ∨ w = 8 ∨ w = 12 → (regValue (vecBase v + w) e).1 = 0)
    ∧ e.time.stamp = 0 ∧ e.time.epoch = 0 ∧ e.time.num = 0 ∧ e.time.valid = false
    ∧ e.lead.pacer = none ∧ e.lead.epoch = 0 ∧ e.lead.quorum = 0 ∧ e.lead.resetQ = 0 ∧ e.lead.linkUp = 0xF
    ∧ inHold e = true ∧ e.pwr.eng = 2 ∧ e.pwr.quads = []
    ∧ (∀ tc : U8, (ten e tc.toNat).st = (if tc = 0 then .opened else .free) ∧ (ten e tc.toNat).tseed = tc.setWidth 128)
    ∧ (ten e 0).qos = { lcShare := 16384, dpShare := 256, beWeight := 256, slotQuota := 65536, parkQuota := 4194304,
                        memShare := 256, slowThr := 0 }
    ∧ e.rq.slots = [] ∧ e.rq.parked = [] ∧ e.models = [] ∧ e.pol = none ∧ e.heat.cur = none ∧ e.heat.count = 0
    ∧ e.relay.crd = 512 ∧ e.relay.peers = []
    ∧ (∀ q : Quad, tget 128 e.port.crd q.toNat = 128 ∧ (mpOf e q.toNat).crd = 8 ∧ bufOf e q.toNat = [])
    ∧ (∀ l : BitVec 6, (laneOf e l.toNat).st = .free)

/-- Every step keeps tier-1 memory in its canonical form: addresses rising, no listed byte 0 (what an unlisted byte reads
as: the model's choice, log entry 1). -/
def Obligations.EveryStepKeepsMemoryCanonical : Prop :=
  ∀ s t : State, memWf s.eng.mem = true → step s = .next t → memWf t.eng.mem = true

/-- Every step keeps the request slots in rising order, so that a slot holds one request. -/
def Obligations.EveryStepKeepsRequestSlotsRising : Prop :=
  ∀ s t : State, Rising s.eng.rq.slots → step s = .next t → Rising t.eng.rq.slots
end

