-- ==== Sys2Proof/Laws/Memory.lean ====
section
/-! SUPPORT. Laws of tier-1 memory: every memory operation keeps the canonical form, what a byte reads as after a
write, and that reset memory is canonical. -/

namespace Sys2Proof.Laws

open Sys2Proof Sys2Proof.Machine

theorem memWf_cons (a : Nat) (x : Byte) (t : List Host.Cell) :
    memWf ((a, x) :: t) = true ↔ x ≠ 0 ∧ (∀ c ∈ t, a < c.1) ∧ memWf t = true := by
  simp [memWf, and_assoc]

theorem mem_memSet {m : List Host.Cell} {n : Nat} {b : Byte} {c : Host.Cell} (h : c ∈ memSet m n b) :
    c = (n, b) ∨ c ∈ m := by
  induction m with
  | nil =>
    unfold memSet at h
    split at h
    · simp at h
    · exact .inl (by simpa using h)
  | cons p t ih =>
    obtain ⟨a, x⟩ := p
    unfold memSet at h
    split at h
    · split at h
      · exact .inr h
      · rcases List.mem_cons.1 h with h | h
        · exact .inl h
        · exact .inr h
    · split at h
      · split at h
        · exact .inr (List.mem_cons_of_mem _ h)
        · rcases List.mem_cons.1 h with h | h
          · exact .inl h
          · exact .inr (List.mem_cons_of_mem _ h)
      · rcases List.mem_cons.1 h with h | h
        · exact .inr (h ▸ List.mem_cons_self)
        · rcases ih h with h | h
          · exact .inl h
          · exact .inr (List.mem_cons_of_mem _ h)

/-- A one-byte write keeps the canonical form. -/
theorem memSet_wf (m : List Host.Cell) (n : Nat) (b : Byte) (h : memWf m = true) : memWf (memSet m n b) = true := by
  induction m with
  | nil => unfold memSet; split <;> simp_all [memWf]
  | cons p t ih =>
    obtain ⟨a, x⟩ := p
    obtain ⟨h1, h2, h3⟩ := (memWf_cons a x t).1 h
    unfold memSet
    split
    · rename_i hn
      split
      · exact h
      · rename_i hb
        refine (memWf_cons _ _ _).2 ⟨hb, fun c hc => ?_, h⟩
        rcases List.mem_cons.1 hc with rfl | hc
        · exact hn
        · have := h2 c hc; omega
    · split
      · rename_i hn; subst hn
        split
        · exact h3
        · rename_i hb
          exact (memWf_cons _ _ _).2 ⟨hb, h2, h3⟩
      · refine (memWf_cons _ _ _).2 ⟨h1, fun c hc => ?_, ih h3⟩
        rcases mem_memSet hc with rfl | hc
        · show a < n; omega
        · exact h2 c hc

/-- A write of bytes keeps the canonical form. -/
theorem memWrite_wf (bs : List Byte) : ∀ (m : List Host.Cell) (a : Nat), memWf m = true → memWf (memWrite m a bs) = true := by
  induction bs with
  | nil => intro m a h; exact h
  | cons b bs ih => intro m a h; exact memSet_wf _ _ _ (ih m (a + 1) h)

/-- Dropping cells keeps the canonical form. -/
theorem memFilter_wf (m : List Host.Cell) (p : Host.Cell → Bool) (h : memWf m = true) : memWf (m.filter p) = true := by
  induction m with
  | nil => rfl
  | cons c t ih =>
    obtain ⟨a, x⟩ := c
    obtain ⟨h1, h2, h3⟩ := (memWf_cons a x t).1 h
    rw [List.filter_cons]
    split
    · exact (memWf_cons _ _ _).2 ⟨h1, fun c hc => h2 c (List.mem_filter.1 hc).1, ih h3⟩
    · exact ih h3

theorem memGet_cons (a : Nat) (x : Byte) (t : List Host.Cell) (k : Nat) :
    memGet ((a, x) :: t) k = if a = k then x else memGet t k := rfl

theorem memGet_low {m : List Host.Cell} {n : Nat} (h : ∀ c ∈ m, n < c.1) : memGet m n = 0 := by
  induction m with
  | nil => rfl
  | cons c t ih =>
    obtain ⟨a, x⟩ := c
    have : n < a := h (a, x) List.mem_cons_self
    unfold memGet
    rw [if_neg (by omega)]
    exact ih (fun c hc => h c (List.mem_cons_of_mem _ hc))

/-- After a one-byte write of canonical memory, the byte reads as written and every other as before. -/
theorem memGet_memSet (m : List Host.Cell) (n k : Nat) (b : Byte) (h : memWf m = true) :
    memGet (memSet m n b) k = if k = n then b else memGet m k := by
  induction m with
  | nil =>
    unfold memSet
    by_cases hb : b = 0
    · simp [hb, memGet]
    · simp only [hb, if_false, memGet]
      by_cases hk : k = n
      · simp [hk]
      · simp [hk, Ne.symm hk]
  | cons p t ih =>
    obtain ⟨a, x⟩ := p
    obtain ⟨h1, h2, h3⟩ := (memWf_cons a x t).1 h
    unfold memSet
    split
    · rename_i hn
      split
      · rename_i hb
        by_cases hk : k = n
        · subst hk
          rw [if_pos rfl, hb]
          exact memGet_low (fun c hc => by
            rcases List.mem_cons.1 hc with rfl | hc
            · exact hn
            · have := h2 c hc; omega)
        · rw [if_neg hk]
      · by_cases hk : k = n
        · subst hk; simp [memGet]
        · rw [if_neg hk, memGet_cons, if_neg (Ne.symm hk)]
    · split
      · rename_i hn; subst hn
        split
        · rename_i hb
          by_cases hk : k = n
          · subst hk; rw [if_pos rfl, hb]; exact memGet_low h2
          · rw [if_neg hk, memGet_cons, if_neg (Ne.symm hk)]
        · by_cases hk : k = n
          · subst hk; simp [memGet]
          · rw [if_neg hk, memGet_cons, memGet_cons, if_neg (Ne.symm hk), if_neg (Ne.symm hk)]
      · rw [memGet_cons, memGet_cons]
        by_cases hk : a = k
        · subst hk; rw [if_pos rfl, if_pos rfl, if_neg (by omega)]
        · rw [if_neg hk, if_neg hk, ih h3]

/-- A byte outside a write of canonical memory reads as before. -/
theorem memGet_memWrite_outside (bs : List Byte) : ∀ (m : List Host.Cell) (a k : Nat), memWf m = true →
    (k < a ∨ a + bs.length ≤ k) → memGet (memWrite m a bs) k = memGet m k := by
  induction bs with
  | nil => intro m a k _ _; rfl
  | cons b bs ih =>
    intro m a k h hk
    simp only [List.length_cons] at hk
    show memGet (memSet (memWrite m (a + 1) bs) a b) k = _
    rw [memGet_memSet _ _ _ _ (memWrite_wf bs m (a + 1) h), if_neg (by omega)]
    exact ih m (a + 1) k h (by omega)

/-- A byte inside a write of canonical memory reads as written. -/
theorem memGet_memWrite_inside (bs : List Byte) : ∀ (m : List Host.Cell) (a i : Nat), memWf m = true →
    (h : i < bs.length) → memGet (memWrite m a bs) (a + i) = bs[i] := by
  induction bs with
  | nil => intro m a i _ h; simp at h
  | cons b bs ih =>
    intro m a i hm h
    show memGet (memSet (memWrite m (a + 1) bs) a b) (a + i) = _
    rw [memGet_memSet _ _ _ _ (memWrite_wf bs m (a + 1) hm)]
    cases i with
    | zero => simp
    | succ i =>
      rw [if_neg (by omega), show a + (i + 1) = a + 1 + i by omega]
      exact ih m (a + 1) i hm (by simpa using h)

theorem memRead_memWrite (bs : List Byte) : ∀ (m : List Host.Cell) (a k : Nat), memWf m = true →
    memRead (memWrite m a bs) (a + k) (bs.length - k) = bs.drop k := by
  intro m a k hm
  generalize hn : bs.length - k = n
  induction n generalizing k with
  | zero => rw [List.drop_eq_nil_of_le (by omega)]; rfl
  | succ n ih =>
    rw [List.drop_eq_getElem_cons (by omega), memRead, memGet_memWrite_inside bs m a k hm (by omega)]
    rw [show a + k + 1 = a + (k + 1) by omega, ih (k + 1) (by omega)]

/-- Reading what was written gives it back. -/
theorem rd_wr (a : Nat) (bs : List Byte) (e : Engine) (h : memWf e.mem = true) : rd (wr a bs e) a bs.length = bs := by
  have := memRead_memWrite bs e.mem a 0 h
  simpa [rd, wr] using this

/-! ## Bytes -/

theorem ofLe_le : ∀ (n v : Nat), ofLe (le n v) = v % 256 ^ n
  | 0, v => by simp [le, ofLe, Nat.mod_one]
  | n + 1, v => by
    rw [le, ofLe, ofLe_le n (v / 256), Nat.pow_succ, Nat.mul_comm (256 ^ n), Nat.mod_mul]
    simp

theorem le_length : ∀ (n v : Nat), (le n v).length = n
  | 0, v => rfl
  | n + 1, v => by simp [le, le_length n]

theorem patch_patch (b : List Byte) (k : Nat) (x y : List Byte) (h : x.length = y.length) (hb : k + x.length ≤ b.length) :
    patch (patch b k x) k y = patch b k y := by
  have h1 : (b.take k).length = k := by rw [List.length_take]; omega
  have h2 : (b.take k ++ x).length = k + x.length := by rw [List.length_append, h1]
  unfold patch
  rw [← h, List.drop_append_of_le_length (by omega), List.drop_of_length_le (l := b.take k ++ x) (by omega), List.append_assoc (b.take k) x,
    List.take_append_of_le_length (by omega), List.take_take, Nat.min_self, List.nil_append]

/-- An image whose CRC was put at `k` over the whole with the field as zero passes the check. -/
theorem crcOk_patch (b : List Byte) (k : Nat) (hb : k + 4 ≤ b.length) :
    crcOk (patch b k (le 4 (crc32c (patch b k (zeros 4))).toNat)) k = true := by
  have h1 : (b.take k).length = k := by rw [List.length_take]; omega
  unfold crcOk
  rw [patch_patch _ _ _ _ (by simp [le_length, zeros]) (by rw [le_length]; exact hb)]
  generalize crc32c (patch b k (zeros 4)) = c
  have : fieldAt (patch b k (le 4 c.toNat)) k 4 = c.toNat := by
    unfold fieldAt patch
    rw [List.append_assoc, List.drop_append_of_le_length (by omega), List.drop_of_length_le (by omega), List.nil_append,
      List.take_append_of_le_length (by simp [le_length]), List.take_of_length_le (by simp [le_length]), ofLe_le]
    exact Nat.mod_eq_of_lt c.isLt
  rw [this]; simp
/-! ## The operations that write memory -/

/-- The operations that write memory keep the canonical form. -/
theorem wr_wf (a : Nat) (bs : List Byte) (e : Engine) (h : memWf e.mem = true) : memWf (wr a bs e).mem = true :=
  memWrite_wf bs e.mem a h

theorem wrN_wf (a n v : Nat) (e : Engine) (h : memWf e.mem = true) : memWf (wrN a n v e).mem = true :=
  wr_wf a (le n v) e h

theorem reset_memWf : memWf State.reset.eng.mem = true := rfl

end Sys2Proof.Laws
end

