-- ==== Sys2Proof/Laws/Tables.lean ====
section
/-! SUPPORT. Laws of the sparse tables: what is read after an entry, a removal or a change, and that the numbers
stay in rising order. -/

namespace Sys2Proof.Laws

open Sys2Proof Sys2Proof.Machine

variable {α : Type}

@[simp] theorem tget?_nil (n : Nat) : tget? ([] : Table α) n = none := rfl
@[simp] theorem tset_nil (n : Nat) (v : α) : tset ([] : Table α) n v = [(n, v)] := rfl
@[simp] theorem tdel_nil (n : Nat) : tdel ([] : Table α) n = [] := rfl
@[simp] theorem tkeys_nil : tkeys ([] : Table α) = [] := rfl
@[simp] theorem tkeys_cons (p : Nat × α) (t : Table α) : tkeys (p :: t) = p.1 :: tkeys t := rfl

theorem tget?_cons (k : Nat) (v : α) (t : Table α) (n : Nat) :
    tget? ((k, v) :: t) n = if k = n then some v else tget? t n := rfl

@[simp] theorem tget?_tset_self (t : Table α) (n : Nat) (v : α) : tget? (tset t n v) n = some v := by
  induction t with
  | nil => simp [tget?_cons]
  | cons p t ih =>
    obtain ⟨k, x⟩ := p
    unfold tset
    split
    · simp [tget?_cons]
    · split
      · simp [tget?_cons]
      · rw [tget?_cons, if_neg (by omega), ih]

theorem tget?_tset_ne (t : Table α) {n m : Nat} (v : α) (h : m ≠ n) : tget? (tset t n v) m = tget? t m := by
  induction t with
  | nil => simp [tget?_cons, h.symm]
  | cons p t ih =>
    obtain ⟨k, x⟩ := p
    unfold tset
    split
    · rw [tget?_cons, if_neg h.symm]
    · split
      · rename_i h1 h2
        rw [tget?_cons, tget?_cons, if_neg h.symm, if_neg (by omega)]
      · rw [tget?_cons, tget?_cons, ih]

@[simp] theorem tget?_tdel_self (t : Table α) (n : Nat) : tget? (tdel t n) n = none := by
  induction t with
  | nil => rfl
  | cons p t ih =>
    obtain ⟨k, x⟩ := p
    unfold tdel at *
    rw [List.filter_cons]
    split
    · rename_i h
      rw [tget?_cons, if_neg (by simpa using h), ih]
    · exact ih

theorem tget?_tdel_ne (t : Table α) {n m : Nat} (h : m ≠ n) : tget? (tdel t n) m = tget? t m := by
  induction t with
  | nil => rfl
  | cons p t ih =>
    obtain ⟨k, x⟩ := p
    unfold tdel at *
    rw [List.filter_cons]
    split
    · rw [tget?_cons, tget?_cons, ih]
    · rename_i h'
      have : k = n := by simpa using h'
      rw [tget?_cons, if_neg (by omega), ih]

theorem tget?_tmod (t : Table α) (n m : Nat) (f : α → α) :
    tget? (tmod t n f) m = if m = n then (tget? t m).map f else tget? t m := by
  induction t with
  | nil => simp [tmod]
  | cons p t ih =>
    obtain ⟨k, x⟩ := p
    unfold tmod at *
    rw [List.map_cons]
    by_cases hk : k = n
    · subst hk
      rw [if_pos rfl, tget?_cons, tget?_cons, ih]
      by_cases hm : k = m
      · subst hm; simp
      · rw [if_neg hm, if_neg hm]
    · rw [if_neg hk, tget?_cons, tget?_cons, ih]
      by_cases hm : k = m
      · subst hm; simp [hk]
      · rw [if_neg hm, if_neg hm]

@[simp] theorem tget_tset_self (d : α) (t : Table α) (n : Nat) (v : α) : tget d (tset t n v) n = v := by simp [tget]

theorem tget_tset_ne (d : α) (t : Table α) {n m : Nat} (v : α) (h : m ≠ n) : tget d (tset t n v) m = tget d t m := by
  simp [tget, tget?_tset_ne t v h]

@[simp] theorem tget_tdel_self (d : α) (t : Table α) (n : Nat) : tget d (tdel t n) n = d := by simp [tget]

theorem tget_tdel_ne (d : α) (t : Table α) {n m : Nat} (h : m ≠ n) : tget d (tdel t n) m = tget d t m := by
  simp [tget, tget?_tdel_ne t h]

/-- Of two entries at one number the later stands. -/
@[simp] theorem tset_tset (t : Table α) (n : Nat) (v w : α) : tset (tset t n v) n w = tset t n w := by
  induction t with
  | nil => simp [tset]
  | cons p t ih =>
    obtain ⟨k, x⟩ := p
    by_cases h1 : n < k
    · simp [tset, h1]
    · by_cases h2 : n = k
      · subst h2; simp [tset]
      · simp [tset, h1, h2, ih]

/-- An entry that is removed again leaves the table without one. -/
@[simp] theorem tdel_tset (t : Table α) (n : Nat) (v : α) : tdel (tset t n v) n = tdel t n := by
  induction t with
  | nil => simp [tdel]
  | cons p t ih =>
    obtain ⟨k, x⟩ := p
    simp only [tdel] at ih ⊢
    unfold tset
    split
    · simp
    · split
      · rename_i h; subst h; simp
      · simp [List.filter_cons, ih]

/-! ## Rising numbers -/

theorem mem_tkeys_tset (t : Table α) (n m : Nat) (v : α) : m ∈ tkeys (tset t n v) ↔ m = n ∨ m ∈ tkeys t := by
  induction t with
  | nil => simp
  | cons p t ih =>
    obtain ⟨k, x⟩ := p
    unfold tset
    split
    · simp
    · split
      · rename_i h; subst h; simp
      · simp only [tkeys_cons, List.mem_cons, ih]; exact or_left_comm

theorem tkeys_tmod (t : Table α) (n : Nat) (f : α → α) : tkeys (tmod t n f) = tkeys t := by
  simp only [tkeys, tmod, List.map_map]
  congr 1
  funext p
  simp only [Function.comp_apply]
  split <;> rfl

theorem rising_tset (t : Table α) (n : Nat) (v : α) (h : (tkeys t).Pairwise (· < ·)) :
    (tkeys (tset t n v)).Pairwise (· < ·) := by
  induction t with
  | nil => simp
  | cons p t ih =>
    obtain ⟨k, x⟩ := p
    obtain ⟨h1, h2⟩ := List.pairwise_cons.1 (by simpa using h)
    unfold tset
    split
    · rename_i hn
      simp only [tkeys_cons]
      refine List.pairwise_cons.2 ⟨fun a ha => ?_, List.pairwise_cons.2 ⟨h1, h2⟩⟩
      rcases List.mem_cons.1 ha with rfl | ha
      · exact hn
      · have := h1 a ha; omega
    · split
      · rename_i h3; subst h3
        exact List.pairwise_cons.2 ⟨h1, h2⟩
      · refine List.pairwise_cons.2 ⟨fun a ha => ?_, ih h2⟩
        rcases (mem_tkeys_tset t n a v).1 ha with rfl | ha
        · show k < a; omega
        · exact h1 a ha

theorem rising_filter (t : Table α) (p : Nat × α → Bool) (h : (tkeys t).Pairwise (· < ·)) :
    (tkeys (t.filter p)).Pairwise (· < ·) :=
  List.Pairwise.sublist (show (tkeys (t.filter p)).Sublist (tkeys t) from List.filter_sublist.map _) h

theorem rising_tdel (t : Table α) (n : Nat) (h : (tkeys t).Pairwise (· < ·)) : (tkeys (tdel t n)).Pairwise (· < ·) :=
  rising_filter t _ h

theorem rising_tmod (t : Table α) (n : Nat) (f : α → α) (h : (tkeys t).Pairwise (· < ·)) :
    (tkeys (tmod t n f)).Pairwise (· < ·) := by rwa [tkeys_tmod]

end Sys2Proof.Laws
end

