-- ==== Sys2Proof/Laws/State.lean ====
section
/-! SUPPORT. Each update of the engine, field by field: an update leaves every field but its own as it was, and its own
field reads as the update says. -/

namespace Sys2Proof.Laws

open Sys2Proof Sys2Proof.Machine

variable (e : Engine)

/-! ## setReg -/

@[simp] theorem setReg_mem (o : Nat) (v : U64) : (setReg o v e).mem = e.mem := rfl
@[simp] theorem setReg_bad (o : Nat) (v : U64) : (setReg o v e).bad = e.bad := rfl
@[simp] theorem setReg_hiLatch (o : Nat) (v : U64) : (setReg o v e).hiLatch = e.hiLatch := rfl
@[simp] theorem setReg_wrLatch (o : Nat) (v : U64) : (setReg o v e).wrLatch = e.wrLatch := rfl
@[simp] theorem setReg_time (o : Nat) (v : U64) : (setReg o v e).time = e.time := rfl
@[simp] theorem setReg_sched (o : Nat) (v : U64) : (setReg o v e).sched = e.sched := rfl
@[simp] theorem setReg_lead (o : Nat) (v : U64) : (setReg o v e).lead = e.lead := rfl
@[simp] theorem setReg_pwr (o : Nat) (v : U64) : (setReg o v e).pwr = e.pwr := rfl
@[simp] theorem setReg_flt (o : Nat) (v : U64) : (setReg o v e).flt = e.flt := rfl
@[simp] theorem setReg_ten (o : Nat) (v : U64) : (setReg o v e).ten = e.ten := rfl
@[simp] theorem setReg_rq (o : Nat) (v : U64) : (setReg o v e).rq = e.rq := rfl
@[simp] theorem setReg_plans (o : Nat) (v : U64) : (setReg o v e).plans = e.plans := rfl
@[simp] theorem setReg_pol (o : Nat) (v : U64) : (setReg o v e).pol = e.pol := rfl
@[simp] theorem setReg_models (o : Nat) (v : U64) : (setReg o v e).models = e.models := rfl
@[simp] theorem setReg_images (o : Nat) (v : U64) : (setReg o v e).images = e.images := rfl
@[simp] theorem setReg_advice (o : Nat) (v : U64) : (setReg o v e).advice = e.advice := rfl
@[simp] theorem setReg_aslots (o : Nat) (v : U64) : (setReg o v e).aslots = e.aslots := rfl
@[simp] theorem setReg_xsets (o : Nat) (v : U64) : (setReg o v e).xsets = e.xsets := rfl
@[simp] theorem setReg_regions (o : Nat) (v : U64) : (setReg o v e).regions = e.regions := rfl
@[simp] theorem setReg_heat (o : Nat) (v : U64) : (setReg o v e).heat = e.heat := rfl
@[simp] theorem setReg_kv (o : Nat) (v : U64) : (setReg o v e).kv = e.kv := rfl
@[simp] theorem setReg_pver (o : Nat) (v : U64) : (setReg o v e).pver = e.pver := rfl
@[simp] theorem setReg_learn (o : Nat) (v : U64) : (setReg o v e).learn = e.learn := rfl
@[simp] theorem setReg_lanes (o : Nat) (v : U64) : (setReg o v e).lanes = e.lanes := rfl
@[simp] theorem setReg_port (o : Nat) (v : U64) : (setReg o v e).port = e.port := rfl
@[simp] theorem setReg_relay (o : Nat) (v : U64) : (setReg o v e).relay = e.relay := rfl
@[simp] theorem setReg_ket (o : Nat) (v : U64) : (setReg o v e).ket = e.ket := rfl
@[simp] theorem setReg_cnt (o : Nat) (v : U64) : (setReg o v e).cnt = e.cnt := rfl
@[simp] theorem setReg_trace (o : Nat) (v : U64) : (setReg o v e).trace = e.trace := rfl
@[simp] theorem setReg_hang (o : Nat) (v : U64) : (setReg o v e).hang = e.hang := rfl
@[simp] theorem setReg_cap (o : Nat) (v : U64) : (setReg o v e).cap = e.cap := rfl
@[simp] theorem setReg_latchNo (o : Nat) (v : U64) : (setReg o v e).latchNo = e.latchNo := rfl
@[simp] theorem setReg_free (o : Nat) (v : U64) : (setReg o v e).free = e.free := rfl

/-! ## setRegF -/

@[simp] theorem setRegF_mem (o hi lo x : Nat) : (setRegF o hi lo x e).mem = e.mem := rfl
@[simp] theorem setRegF_bad (o hi lo x : Nat) : (setRegF o hi lo x e).bad = e.bad := rfl
@[simp] theorem setRegF_hiLatch (o hi lo x : Nat) : (setRegF o hi lo x e).hiLatch = e.hiLatch := rfl
@[simp] theorem setRegF_wrLatch (o hi lo x : Nat) : (setRegF o hi lo x e).wrLatch = e.wrLatch := rfl
@[simp] theorem setRegF_time (o hi lo x : Nat) : (setRegF o hi lo x e).time = e.time := rfl
@[simp] theorem setRegF_sched (o hi lo x : Nat) : (setRegF o hi lo x e).sched = e.sched := rfl
@[simp] theorem setRegF_lead (o hi lo x : Nat) : (setRegF o hi lo x e).lead = e.lead := rfl
@[simp] theorem setRegF_pwr (o hi lo x : Nat) : (setRegF o hi lo x e).pwr = e.pwr := rfl
@[simp] theorem setRegF_flt (o hi lo x : Nat) : (setRegF o hi lo x e).flt = e.flt := rfl
@[simp] theorem setRegF_ten (o hi lo x : Nat) : (setRegF o hi lo x e).ten = e.ten := rfl
@[simp] theorem setRegF_rq (o hi lo x : Nat) : (setRegF o hi lo x e).rq = e.rq := rfl
@[simp] theorem setRegF_plans (o hi lo x : Nat) : (setRegF o hi lo x e).plans = e.plans := rfl
@[simp] theorem setRegF_pol (o hi lo x : Nat) : (setRegF o hi lo x e).pol = e.pol := rfl
@[simp] theorem setRegF_models (o hi lo x : Nat) : (setRegF o hi lo x e).models = e.models := rfl
@[simp] theorem setRegF_images (o hi lo x : Nat) : (setRegF o hi lo x e).images = e.images := rfl
@[simp] theorem setRegF_advice (o hi lo x : Nat) : (setRegF o hi lo x e).advice = e.advice := rfl
@[simp] theorem setRegF_aslots (o hi lo x : Nat) : (setRegF o hi lo x e).aslots = e.aslots := rfl
@[simp] theorem setRegF_xsets (o hi lo x : Nat) : (setRegF o hi lo x e).xsets = e.xsets := rfl
@[simp] theorem setRegF_regions (o hi lo x : Nat) : (setRegF o hi lo x e).regions = e.regions := rfl
@[simp] theorem setRegF_heat (o hi lo x : Nat) : (setRegF o hi lo x e).heat = e.heat := rfl
@[simp] theorem setRegF_kv (o hi lo x : Nat) : (setRegF o hi lo x e).kv = e.kv := rfl
@[simp] theorem setRegF_pver (o hi lo x : Nat) : (setRegF o hi lo x e).pver = e.pver := rfl
@[simp] theorem setRegF_learn (o hi lo x : Nat) : (setRegF o hi lo x e).learn = e.learn := rfl
@[simp] theorem setRegF_lanes (o hi lo x : Nat) : (setRegF o hi lo x e).lanes = e.lanes := rfl
@[simp] theorem setRegF_port (o hi lo x : Nat) : (setRegF o hi lo x e).port = e.port := rfl
@[simp] theorem setRegF_relay (o hi lo x : Nat) : (setRegF o hi lo x e).relay = e.relay := rfl
@[simp] theorem setRegF_ket (o hi lo x : Nat) : (setRegF o hi lo x e).ket = e.ket := rfl
@[simp] theorem setRegF_cnt (o hi lo x : Nat) : (setRegF o hi lo x e).cnt = e.cnt := rfl
@[simp] theorem setRegF_trace (o hi lo x : Nat) : (setRegF o hi lo x e).trace = e.trace := rfl
@[simp] theorem setRegF_hang (o hi lo x : Nat) : (setRegF o hi lo x e).hang = e.hang := rfl
@[simp] theorem setRegF_cap (o hi lo x : Nat) : (setRegF o hi lo x e).cap = e.cap := rfl
@[simp] theorem setRegF_latchNo (o hi lo x : Nat) : (setRegF o hi lo x e).latchNo = e.latchNo := rfl
@[simp] theorem setRegF_free (o hi lo x : Nat) : (setRegF o hi lo x e).free = e.free := rfl

/-! ## bumpSat -/

@[simp] theorem bumpSat_mem (o hi lo n : Nat) : (bumpSat o hi lo n e).mem = e.mem := rfl
@[simp] theorem bumpSat_bad (o hi lo n : Nat) : (bumpSat o hi lo n e).bad = e.bad := rfl
@[simp] theorem bumpSat_hiLatch (o hi lo n : Nat) : (bumpSat o hi lo n e).hiLatch = e.hiLatch := rfl
@[simp] theorem bumpSat_wrLatch (o hi lo n : Nat) : (bumpSat o hi lo n e).wrLatch = e.wrLatch := rfl
@[simp] theorem bumpSat_time (o hi lo n : Nat) : (bumpSat o hi lo n e).time = e.time := rfl
@[simp] theorem bumpSat_sched (o hi lo n : Nat) : (bumpSat o hi lo n e).sched = e.sched := rfl
@[simp] theorem bumpSat_lead (o hi lo n : Nat) : (bumpSat o hi lo n e).lead = e.lead := rfl
@[simp] theorem bumpSat_pwr (o hi lo n : Nat) : (bumpSat o hi lo n e).pwr = e.pwr := rfl
@[simp] theorem bumpSat_flt (o hi lo n : Nat) : (bumpSat o hi lo n e).flt = e.flt := rfl
@[simp] theorem bumpSat_ten (o hi lo n : Nat) : (bumpSat o hi lo n e).ten = e.ten := rfl
@[simp] theorem bumpSat_rq (o hi lo n : Nat) : (bumpSat o hi lo n e).rq = e.rq := rfl
@[simp] theorem bumpSat_plans (o hi lo n : Nat) : (bumpSat o hi lo n e).plans = e.plans := rfl
@[simp] theorem bumpSat_pol (o hi lo n : Nat) : (bumpSat o hi lo n e).pol = e.pol := rfl
@[simp] theorem bumpSat_models (o hi lo n : Nat) : (bumpSat o hi lo n e).models = e.models := rfl
@[simp] theorem bumpSat_images (o hi lo n : Nat) : (bumpSat o hi lo n e).images = e.images := rfl
@[simp] theorem bumpSat_advice (o hi lo n : Nat) : (bumpSat o hi lo n e).advice = e.advice := rfl
@[simp] theorem bumpSat_aslots (o hi lo n : Nat) : (bumpSat o hi lo n e).aslots = e.aslots := rfl
@[simp] theorem bumpSat_xsets (o hi lo n : Nat) : (bumpSat o hi lo n e).xsets = e.xsets := rfl
@[simp] theorem bumpSat_regions (o hi lo n : Nat) : (bumpSat o hi lo n e).regions = e.regions := rfl
@[simp] theorem bumpSat_heat (o hi lo n : Nat) : (bumpSat o hi lo n e).heat = e.heat := rfl
@[simp] theorem bumpSat_kv (o hi lo n : Nat) : (bumpSat o hi lo n e).kv = e.kv := rfl
@[simp] theorem bumpSat_pver (o hi lo n : Nat) : (bumpSat o hi lo n e).pver = e.pver := rfl
@[simp] theorem bumpSat_learn (o hi lo n : Nat) : (bumpSat o hi lo n e).learn = e.learn := rfl
@[simp] theorem bumpSat_lanes (o hi lo n : Nat) : (bumpSat o hi lo n e).lanes = e.lanes := rfl
@[simp] theorem bumpSat_port (o hi lo n : Nat) : (bumpSat o hi lo n e).port = e.port := rfl
@[simp] theorem bumpSat_relay (o hi lo n : Nat) : (bumpSat o hi lo n e).relay = e.relay := rfl
@[simp] theorem bumpSat_ket (o hi lo n : Nat) : (bumpSat o hi lo n e).ket = e.ket := rfl
@[simp] theorem bumpSat_cnt (o hi lo n : Nat) : (bumpSat o hi lo n e).cnt = e.cnt := rfl
@[simp] theorem bumpSat_trace (o hi lo n : Nat) : (bumpSat o hi lo n e).trace = e.trace := rfl
@[simp] theorem bumpSat_hang (o hi lo n : Nat) : (bumpSat o hi lo n e).hang = e.hang := rfl
@[simp] theorem bumpSat_cap (o hi lo n : Nat) : (bumpSat o hi lo n e).cap = e.cap := rfl
@[simp] theorem bumpSat_latchNo (o hi lo n : Nat) : (bumpSat o hi lo n e).latchNo = e.latchNo := rfl
@[simp] theorem bumpSat_free (o hi lo n : Nat) : (bumpSat o hi lo n e).free = e.free := rfl

/-! ## wr -/

@[simp] theorem wr_bad (a : Nat) (bs : List Byte) : (wr a bs e).bad = e.bad := rfl
@[simp] theorem wr_regs (a : Nat) (bs : List Byte) : (wr a bs e).regs = e.regs := rfl
@[simp] theorem wr_hiLatch (a : Nat) (bs : List Byte) : (wr a bs e).hiLatch = e.hiLatch := rfl
@[simp] theorem wr_wrLatch (a : Nat) (bs : List Byte) : (wr a bs e).wrLatch = e.wrLatch := rfl
@[simp] theorem wr_time (a : Nat) (bs : List Byte) : (wr a bs e).time = e.time := rfl
@[simp] theorem wr_sched (a : Nat) (bs : List Byte) : (wr a bs e).sched = e.sched := rfl
@[simp] theorem wr_lead (a : Nat) (bs : List Byte) : (wr a bs e).lead = e.lead := rfl
@[simp] theorem wr_pwr (a : Nat) (bs : List Byte) : (wr a bs e).pwr = e.pwr := rfl
@[simp] theorem wr_flt (a : Nat) (bs : List Byte) : (wr a bs e).flt = e.flt := rfl
@[simp] theorem wr_ten (a : Nat) (bs : List Byte) : (wr a bs e).ten = e.ten := rfl
@[simp] theorem wr_rq (a : Nat) (bs : List Byte) : (wr a bs e).rq = e.rq := rfl
@[simp] theorem wr_plans (a : Nat) (bs : List Byte) : (wr a bs e).plans = e.plans := rfl
@[simp] theorem wr_pol (a : Nat) (bs : List Byte) : (wr a bs e).pol = e.pol := rfl
@[simp] theorem wr_models (a : Nat) (bs : List Byte) : (wr a bs e).models = e.models := rfl
@[simp] theorem wr_images (a : Nat) (bs : List Byte) : (wr a bs e).images = e.images := rfl
@[simp] theorem wr_advice (a : Nat) (bs : List Byte) : (wr a bs e).advice = e.advice := rfl
@[simp] theorem wr_aslots (a : Nat) (bs : List Byte) : (wr a bs e).aslots = e.aslots := rfl
@[simp] theorem wr_xsets (a : Nat) (bs : List Byte) : (wr a bs e).xsets = e.xsets := rfl
@[simp] theorem wr_regions (a : Nat) (bs : List Byte) : (wr a bs e).regions = e.regions := rfl
@[simp] theorem wr_heat (a : Nat) (bs : List Byte) : (wr a bs e).heat = e.heat := rfl
@[simp] theorem wr_kv (a : Nat) (bs : List Byte) : (wr a bs e).kv = e.kv := rfl
@[simp] theorem wr_pver (a : Nat) (bs : List Byte) : (wr a bs e).pver = e.pver := rfl
@[simp] theorem wr_learn (a : Nat) (bs : List Byte) : (wr a bs e).learn = e.learn := rfl
@[simp] theorem wr_lanes (a : Nat) (bs : List Byte) : (wr a bs e).lanes = e.lanes := rfl
@[simp] theorem wr_port (a : Nat) (bs : List Byte) : (wr a bs e).port = e.port := rfl
@[simp] theorem wr_relay (a : Nat) (bs : List Byte) : (wr a bs e).relay = e.relay := rfl
@[simp] theorem wr_ket (a : Nat) (bs : List Byte) : (wr a bs e).ket = e.ket := rfl
@[simp] theorem wr_cnt (a : Nat) (bs : List Byte) : (wr a bs e).cnt = e.cnt := rfl
@[simp] theorem wr_trace (a : Nat) (bs : List Byte) : (wr a bs e).trace = e.trace := rfl
@[simp] theorem wr_hang (a : Nat) (bs : List Byte) : (wr a bs e).hang = e.hang := rfl
@[simp] theorem wr_cap (a : Nat) (bs : List Byte) : (wr a bs e).cap = e.cap := rfl
@[simp] theorem wr_latchNo (a : Nat) (bs : List Byte) : (wr a bs e).latchNo = e.latchNo := rfl
@[simp] theorem wr_free (a : Nat) (bs : List Byte) : (wr a bs e).free = e.free := rfl

/-! ## setTen -/

@[simp] theorem setTen_mem (tc : Nat) (t : Tenant) : (setTen tc t e).mem = e.mem := rfl
@[simp] theorem setTen_bad (tc : Nat) (t : Tenant) : (setTen tc t e).bad = e.bad := rfl
@[simp] theorem setTen_regs (tc : Nat) (t : Tenant) : (setTen tc t e).regs = e.regs := rfl
@[simp] theorem setTen_hiLatch (tc : Nat) (t : Tenant) : (setTen tc t e).hiLatch = e.hiLatch := rfl
@[simp] theorem setTen_wrLatch (tc : Nat) (t : Tenant) : (setTen tc t e).wrLatch = e.wrLatch := rfl
@[simp] theorem setTen_time (tc : Nat) (t : Tenant) : (setTen tc t e).time = e.time := rfl
@[simp] theorem setTen_sched (tc : Nat) (t : Tenant) : (setTen tc t e).sched = e.sched := rfl
@[simp] theorem setTen_lead (tc : Nat) (t : Tenant) : (setTen tc t e).lead = e.lead := rfl
@[simp] theorem setTen_pwr (tc : Nat) (t : Tenant) : (setTen tc t e).pwr = e.pwr := rfl
@[simp] theorem setTen_flt (tc : Nat) (t : Tenant) : (setTen tc t e).flt = e.flt := rfl
@[simp] theorem setTen_rq (tc : Nat) (t : Tenant) : (setTen tc t e).rq = e.rq := rfl
@[simp] theorem setTen_plans (tc : Nat) (t : Tenant) : (setTen tc t e).plans = e.plans := rfl
@[simp] theorem setTen_pol (tc : Nat) (t : Tenant) : (setTen tc t e).pol = e.pol := rfl
@[simp] theorem setTen_models (tc : Nat) (t : Tenant) : (setTen tc t e).models = e.models := rfl
@[simp] theorem setTen_images (tc : Nat) (t : Tenant) : (setTen tc t e).images = e.images := rfl
@[simp] theorem setTen_advice (tc : Nat) (t : Tenant) : (setTen tc t e).advice = e.advice := rfl
@[simp] theorem setTen_aslots (tc : Nat) (t : Tenant) : (setTen tc t e).aslots = e.aslots := rfl
@[simp] theorem setTen_xsets (tc : Nat) (t : Tenant) : (setTen tc t e).xsets = e.xsets := rfl
@[simp] theorem setTen_regions (tc : Nat) (t : Tenant) : (setTen tc t e).regions = e.regions := rfl
@[simp] theorem setTen_heat (tc : Nat) (t : Tenant) : (setTen tc t e).heat = e.heat := rfl
@[simp] theorem setTen_kv (tc : Nat) (t : Tenant) : (setTen tc t e).kv = e.kv := rfl
@[simp] theorem setTen_pver (tc : Nat) (t : Tenant) : (setTen tc t e).pver = e.pver := rfl
@[simp] theorem setTen_learn (tc : Nat) (t : Tenant) : (setTen tc t e).learn = e.learn := rfl
@[simp] theorem setTen_lanes (tc : Nat) (t : Tenant) : (setTen tc t e).lanes = e.lanes := rfl
@[simp] theorem setTen_port (tc : Nat) (t : Tenant) : (setTen tc t e).port = e.port := rfl
@[simp] theorem setTen_relay (tc : Nat) (t : Tenant) : (setTen tc t e).relay = e.relay := rfl
@[simp] theorem setTen_ket (tc : Nat) (t : Tenant) : (setTen tc t e).ket = e.ket := rfl
@[simp] theorem setTen_cnt (tc : Nat) (t : Tenant) : (setTen tc t e).cnt = e.cnt := rfl
@[simp] theorem setTen_trace (tc : Nat) (t : Tenant) : (setTen tc t e).trace = e.trace := rfl
@[simp] theorem setTen_hang (tc : Nat) (t : Tenant) : (setTen tc t e).hang = e.hang := rfl
@[simp] theorem setTen_cap (tc : Nat) (t : Tenant) : (setTen tc t e).cap = e.cap := rfl
@[simp] theorem setTen_latchNo (tc : Nat) (t : Tenant) : (setTen tc t e).latchNo = e.latchNo := rfl
@[simp] theorem setTen_free (tc : Nat) (t : Tenant) : (setTen tc t e).free = e.free := rfl

/-! ## modTen -/

@[simp] theorem modTen_mem (tc : Nat) (f : Tenant → Tenant) : (modTen tc f e).mem = e.mem := rfl
@[simp] theorem modTen_bad (tc : Nat) (f : Tenant → Tenant) : (modTen tc f e).bad = e.bad := rfl
@[simp] theorem modTen_regs (tc : Nat) (f : Tenant → Tenant) : (modTen tc f e).regs = e.regs := rfl
@[simp] theorem modTen_hiLatch (tc : Nat) (f : Tenant → Tenant) : (modTen tc f e).hiLatch = e.hiLatch := rfl
@[simp] theorem modTen_wrLatch (tc : Nat) (f : Tenant → Tenant) : (modTen tc f e).wrLatch = e.wrLatch := rfl
@[simp] theorem modTen_time (tc : Nat) (f : Tenant → Tenant) : (modTen tc f e).time = e.time := rfl
@[simp] theorem modTen_sched (tc : Nat) (f : Tenant → Tenant) : (modTen tc f e).sched = e.sched := rfl
@[simp] theorem modTen_lead (tc : Nat) (f : Tenant → Tenant) : (modTen tc f e).lead = e.lead := rfl
@[simp] theorem modTen_pwr (tc : Nat) (f : Tenant → Tenant) : (modTen tc f e).pwr = e.pwr := rfl
@[simp] theorem modTen_flt (tc : Nat) (f : Tenant → Tenant) : (modTen tc f e).flt = e.flt := rfl
@[simp] theorem modTen_rq (tc : Nat) (f : Tenant → Tenant) : (modTen tc f e).rq = e.rq := rfl
@[simp] theorem modTen_plans (tc : Nat) (f : Tenant → Tenant) : (modTen tc f e).plans = e.plans := rfl
@[simp] theorem modTen_pol (tc : Nat) (f : Tenant → Tenant) : (modTen tc f e).pol = e.pol := rfl
@[simp] theorem modTen_models (tc : Nat) (f : Tenant → Tenant) : (modTen tc f e).models = e.models := rfl
@[simp] theorem modTen_images (tc : Nat) (f : Tenant → Tenant) : (modTen tc f e).images = e.images := rfl
@[simp] theorem modTen_advice (tc : Nat) (f : Tenant → Tenant) : (modTen tc f e).advice = e.advice := rfl
@[simp] theorem modTen_aslots (tc : Nat) (f : Tenant → Tenant) : (modTen tc f e).aslots = e.aslots := rfl
@[simp] theorem modTen_xsets (tc : Nat) (f : Tenant → Tenant) : (modTen tc f e).xsets = e.xsets := rfl
@[simp] theorem modTen_regions (tc : Nat) (f : Tenant → Tenant) : (modTen tc f e).regions = e.regions := rfl
@[simp] theorem modTen_heat (tc : Nat) (f : Tenant → Tenant) : (modTen tc f e).heat = e.heat := rfl
@[simp] theorem modTen_kv (tc : Nat) (f : Tenant → Tenant) : (modTen tc f e).kv = e.kv := rfl
@[simp] theorem modTen_pver (tc : Nat) (f : Tenant → Tenant) : (modTen tc f e).pver = e.pver := rfl
@[simp] theorem modTen_learn (tc : Nat) (f : Tenant → Tenant) : (modTen tc f e).learn = e.learn := rfl
@[simp] theorem modTen_lanes (tc : Nat) (f : Tenant → Tenant) : (modTen tc f e).lanes = e.lanes := rfl
@[simp] theorem modTen_port (tc : Nat) (f : Tenant → Tenant) : (modTen tc f e).port = e.port := rfl
@[simp] theorem modTen_relay (tc : Nat) (f : Tenant → Tenant) : (modTen tc f e).relay = e.relay := rfl
@[simp] theorem modTen_ket (tc : Nat) (f : Tenant → Tenant) : (modTen tc f e).ket = e.ket := rfl
@[simp] theorem modTen_cnt (tc : Nat) (f : Tenant → Tenant) : (modTen tc f e).cnt = e.cnt := rfl
@[simp] theorem modTen_trace (tc : Nat) (f : Tenant → Tenant) : (modTen tc f e).trace = e.trace := rfl
@[simp] theorem modTen_hang (tc : Nat) (f : Tenant → Tenant) : (modTen tc f e).hang = e.hang := rfl
@[simp] theorem modTen_cap (tc : Nat) (f : Tenant → Tenant) : (modTen tc f e).cap = e.cap := rfl
@[simp] theorem modTen_latchNo (tc : Nat) (f : Tenant → Tenant) : (modTen tc f e).latchNo = e.latchNo := rfl
@[simp] theorem modTen_free (tc : Nat) (f : Tenant → Tenant) : (modTen tc f e).free = e.free := rfl

/-! ## modRing -/

@[simp] theorem modRing_mem (tc : Nat) (f : TRing → TRing) : (modRing tc f e).mem = e.mem := rfl
@[simp] theorem modRing_bad (tc : Nat) (f : TRing → TRing) : (modRing tc f e).bad = e.bad := rfl
@[simp] theorem modRing_regs (tc : Nat) (f : TRing → TRing) : (modRing tc f e).regs = e.regs := rfl
@[simp] theorem modRing_hiLatch (tc : Nat) (f : TRing → TRing) : (modRing tc f e).hiLatch = e.hiLatch := rfl
@[simp] theorem modRing_wrLatch (tc : Nat) (f : TRing → TRing) : (modRing tc f e).wrLatch = e.wrLatch := rfl
@[simp] theorem modRing_time (tc : Nat) (f : TRing → TRing) : (modRing tc f e).time = e.time := rfl
@[simp] theorem modRing_sched (tc : Nat) (f : TRing → TRing) : (modRing tc f e).sched = e.sched := rfl
@[simp] theorem modRing_lead (tc : Nat) (f : TRing → TRing) : (modRing tc f e).lead = e.lead := rfl
@[simp] theorem modRing_pwr (tc : Nat) (f : TRing → TRing) : (modRing tc f e).pwr = e.pwr := rfl
@[simp] theorem modRing_flt (tc : Nat) (f : TRing → TRing) : (modRing tc f e).flt = e.flt := rfl
@[simp] theorem modRing_rq (tc : Nat) (f : TRing → TRing) : (modRing tc f e).rq = e.rq := rfl
@[simp] theorem modRing_plans (tc : Nat) (f : TRing → TRing) : (modRing tc f e).plans = e.plans := rfl
@[simp] theorem modRing_pol (tc : Nat) (f : TRing → TRing) : (modRing tc f e).pol = e.pol := rfl
@[simp] theorem modRing_models (tc : Nat) (f : TRing → TRing) : (modRing tc f e).models = e.models := rfl
@[simp] theorem modRing_images (tc : Nat) (f : TRing → TRing) : (modRing tc f e).images = e.images := rfl
@[simp] theorem modRing_advice (tc : Nat) (f : TRing → TRing) : (modRing tc f e).advice = e.advice := rfl
@[simp] theorem modRing_aslots (tc : Nat) (f : TRing → TRing) : (modRing tc f e).aslots = e.aslots := rfl
@[simp] theorem modRing_xsets (tc : Nat) (f : TRing → TRing) : (modRing tc f e).xsets = e.xsets := rfl
@[simp] theorem modRing_regions (tc : Nat) (f : TRing → TRing) : (modRing tc f e).regions = e.regions := rfl
@[simp] theorem modRing_heat (tc : Nat) (f : TRing → TRing) : (modRing tc f e).heat = e.heat := rfl
@[simp] theorem modRing_kv (tc : Nat) (f : TRing → TRing) : (modRing tc f e).kv = e.kv := rfl
@[simp] theorem modRing_pver (tc : Nat) (f : TRing → TRing) : (modRing tc f e).pver = e.pver := rfl
@[simp] theorem modRing_learn (tc : Nat) (f : TRing → TRing) : (modRing tc f e).learn = e.learn := rfl
@[simp] theorem modRing_lanes (tc : Nat) (f : TRing → TRing) : (modRing tc f e).lanes = e.lanes := rfl
@[simp] theorem modRing_port (tc : Nat) (f : TRing → TRing) : (modRing tc f e).port = e.port := rfl
@[simp] theorem modRing_relay (tc : Nat) (f : TRing → TRing) : (modRing tc f e).relay = e.relay := rfl
@[simp] theorem modRing_ket (tc : Nat) (f : TRing → TRing) : (modRing tc f e).ket = e.ket := rfl
@[simp] theorem modRing_cnt (tc : Nat) (f : TRing → TRing) : (modRing tc f e).cnt = e.cnt := rfl
@[simp] theorem modRing_trace (tc : Nat) (f : TRing → TRing) : (modRing tc f e).trace = e.trace := rfl
@[simp] theorem modRing_hang (tc : Nat) (f : TRing → TRing) : (modRing tc f e).hang = e.hang := rfl
@[simp] theorem modRing_cap (tc : Nat) (f : TRing → TRing) : (modRing tc f e).cap = e.cap := rfl
@[simp] theorem modRing_latchNo (tc : Nat) (f : TRing → TRing) : (modRing tc f e).latchNo = e.latchNo := rfl
@[simp] theorem modRing_free (tc : Nat) (f : TRing → TRing) : (modRing tc f e).free = e.free := rfl

/-! ## modLearn -/

@[simp] theorem modLearn_mem (tc : Nat) (f : TLearn → TLearn) : (modLearn tc f e).mem = e.mem := rfl
@[simp] theorem modLearn_bad (tc : Nat) (f : TLearn → TLearn) : (modLearn tc f e).bad = e.bad := rfl
@[simp] theorem modLearn_regs (tc : Nat) (f : TLearn → TLearn) : (modLearn tc f e).regs = e.regs := rfl
@[simp] theorem modLearn_hiLatch (tc : Nat) (f : TLearn → TLearn) : (modLearn tc f e).hiLatch = e.hiLatch := rfl
@[simp] theorem modLearn_wrLatch (tc : Nat) (f : TLearn → TLearn) : (modLearn tc f e).wrLatch = e.wrLatch := rfl
@[simp] theorem modLearn_time (tc : Nat) (f : TLearn → TLearn) : (modLearn tc f e).time = e.time := rfl
@[simp] theorem modLearn_sched (tc : Nat) (f : TLearn → TLearn) : (modLearn tc f e).sched = e.sched := rfl
@[simp] theorem modLearn_lead (tc : Nat) (f : TLearn → TLearn) : (modLearn tc f e).lead = e.lead := rfl
@[simp] theorem modLearn_pwr (tc : Nat) (f : TLearn → TLearn) : (modLearn tc f e).pwr = e.pwr := rfl
@[simp] theorem modLearn_flt (tc : Nat) (f : TLearn → TLearn) : (modLearn tc f e).flt = e.flt := rfl
@[simp] theorem modLearn_rq (tc : Nat) (f : TLearn → TLearn) : (modLearn tc f e).rq = e.rq := rfl
@[simp] theorem modLearn_plans (tc : Nat) (f : TLearn → TLearn) : (modLearn tc f e).plans = e.plans := rfl
@[simp] theorem modLearn_pol (tc : Nat) (f : TLearn → TLearn) : (modLearn tc f e).pol = e.pol := rfl
@[simp] theorem modLearn_models (tc : Nat) (f : TLearn → TLearn) : (modLearn tc f e).models = e.models := rfl
@[simp] theorem modLearn_images (tc : Nat) (f : TLearn → TLearn) : (modLearn tc f e).images = e.images := rfl
@[simp] theorem modLearn_advice (tc : Nat) (f : TLearn → TLearn) : (modLearn tc f e).advice = e.advice := rfl
@[simp] theorem modLearn_aslots (tc : Nat) (f : TLearn → TLearn) : (modLearn tc f e).aslots = e.aslots := rfl
@[simp] theorem modLearn_xsets (tc : Nat) (f : TLearn → TLearn) : (modLearn tc f e).xsets = e.xsets := rfl
@[simp] theorem modLearn_regions (tc : Nat) (f : TLearn → TLearn) : (modLearn tc f e).regions = e.regions := rfl
@[simp] theorem modLearn_heat (tc : Nat) (f : TLearn → TLearn) : (modLearn tc f e).heat = e.heat := rfl
@[simp] theorem modLearn_kv (tc : Nat) (f : TLearn → TLearn) : (modLearn tc f e).kv = e.kv := rfl
@[simp] theorem modLearn_pver (tc : Nat) (f : TLearn → TLearn) : (modLearn tc f e).pver = e.pver := rfl
@[simp] theorem modLearn_learn (tc : Nat) (f : TLearn → TLearn) : (modLearn tc f e).learn = e.learn := rfl
@[simp] theorem modLearn_lanes (tc : Nat) (f : TLearn → TLearn) : (modLearn tc f e).lanes = e.lanes := rfl
@[simp] theorem modLearn_port (tc : Nat) (f : TLearn → TLearn) : (modLearn tc f e).port = e.port := rfl
@[simp] theorem modLearn_relay (tc : Nat) (f : TLearn → TLearn) : (modLearn tc f e).relay = e.relay := rfl
@[simp] theorem modLearn_ket (tc : Nat) (f : TLearn → TLearn) : (modLearn tc f e).ket = e.ket := rfl
@[simp] theorem modLearn_cnt (tc : Nat) (f : TLearn → TLearn) : (modLearn tc f e).cnt = e.cnt := rfl
@[simp] theorem modLearn_trace (tc : Nat) (f : TLearn → TLearn) : (modLearn tc f e).trace = e.trace := rfl
@[simp] theorem modLearn_hang (tc : Nat) (f : TLearn → TLearn) : (modLearn tc f e).hang = e.hang := rfl
@[simp] theorem modLearn_cap (tc : Nat) (f : TLearn → TLearn) : (modLearn tc f e).cap = e.cap := rfl
@[simp] theorem modLearn_latchNo (tc : Nat) (f : TLearn → TLearn) : (modLearn tc f e).latchNo = e.latchNo := rfl
@[simp] theorem modLearn_free (tc : Nat) (f : TLearn → TLearn) : (modLearn tc f e).free = e.free := rfl

/-! ## addCnt -/

@[simp] theorem addCnt_mem (k n : Nat) : (addCnt k n e).mem = e.mem := rfl
@[simp] theorem addCnt_bad (k n : Nat) : (addCnt k n e).bad = e.bad := rfl
@[simp] theorem addCnt_regs (k n : Nat) : (addCnt k n e).regs = e.regs := rfl
@[simp] theorem addCnt_hiLatch (k n : Nat) : (addCnt k n e).hiLatch = e.hiLatch := rfl
@[simp] theorem addCnt_wrLatch (k n : Nat) : (addCnt k n e).wrLatch = e.wrLatch := rfl
@[simp] theorem addCnt_time (k n : Nat) : (addCnt k n e).time = e.time := rfl
@[simp] theorem addCnt_sched (k n : Nat) : (addCnt k n e).sched = e.sched := rfl
@[simp] theorem addCnt_lead (k n : Nat) : (addCnt k n e).lead = e.lead := rfl
@[simp] theorem addCnt_pwr (k n : Nat) : (addCnt k n e).pwr = e.pwr := rfl
@[simp] theorem addCnt_flt (k n : Nat) : (addCnt k n e).flt = e.flt := rfl
@[simp] theorem addCnt_ten (k n : Nat) : (addCnt k n e).ten = e.ten := rfl
@[simp] theorem addCnt_rq (k n : Nat) : (addCnt k n e).rq = e.rq := rfl
@[simp] theorem addCnt_plans (k n : Nat) : (addCnt k n e).plans = e.plans := rfl
@[simp] theorem addCnt_pol (k n : Nat) : (addCnt k n e).pol = e.pol := rfl
@[simp] theorem addCnt_models (k n : Nat) : (addCnt k n e).models = e.models := rfl
@[simp] theorem addCnt_images (k n : Nat) : (addCnt k n e).images = e.images := rfl
@[simp] theorem addCnt_advice (k n : Nat) : (addCnt k n e).advice = e.advice := rfl
@[simp] theorem addCnt_aslots (k n : Nat) : (addCnt k n e).aslots = e.aslots := rfl
@[simp] theorem addCnt_xsets (k n : Nat) : (addCnt k n e).xsets = e.xsets := rfl
@[simp] theorem addCnt_regions (k n : Nat) : (addCnt k n e).regions = e.regions := rfl
@[simp] theorem addCnt_heat (k n : Nat) : (addCnt k n e).heat = e.heat := rfl
@[simp] theorem addCnt_kv (k n : Nat) : (addCnt k n e).kv = e.kv := rfl
@[simp] theorem addCnt_pver (k n : Nat) : (addCnt k n e).pver = e.pver := rfl
@[simp] theorem addCnt_learn (k n : Nat) : (addCnt k n e).learn = e.learn := rfl
@[simp] theorem addCnt_lanes (k n : Nat) : (addCnt k n e).lanes = e.lanes := rfl
@[simp] theorem addCnt_port (k n : Nat) : (addCnt k n e).port = e.port := rfl
@[simp] theorem addCnt_relay (k n : Nat) : (addCnt k n e).relay = e.relay := rfl
@[simp] theorem addCnt_ket (k n : Nat) : (addCnt k n e).ket = e.ket := rfl
@[simp] theorem addCnt_trace (k n : Nat) : (addCnt k n e).trace = e.trace := rfl
@[simp] theorem addCnt_hang (k n : Nat) : (addCnt k n e).hang = e.hang := rfl
@[simp] theorem addCnt_cap (k n : Nat) : (addCnt k n e).cap = e.cap := rfl
@[simp] theorem addCnt_latchNo (k n : Nat) : (addCnt k n e).latchNo = e.latchNo := rfl
@[simp] theorem addCnt_free (k n : Nat) : (addCnt k n e).free = e.free := rfl

/-! ## setReq -/

@[simp] theorem setReq_mem (slot : Nat) (r : Req) : (setReq slot r e).mem = e.mem := rfl
@[simp] theorem setReq_bad (slot : Nat) (r : Req) : (setReq slot r e).bad = e.bad := rfl
@[simp] theorem setReq_regs (slot : Nat) (r : Req) : (setReq slot r e).regs = e.regs := rfl
@[simp] theorem setReq_hiLatch (slot : Nat) (r : Req) : (setReq slot r e).hiLatch = e.hiLatch := rfl
@[simp] theorem setReq_wrLatch (slot : Nat) (r : Req) : (setReq slot r e).wrLatch = e.wrLatch := rfl
@[simp] theorem setReq_time (slot : Nat) (r : Req) : (setReq slot r e).time = e.time := rfl
@[simp] theorem setReq_sched (slot : Nat) (r : Req) : (setReq slot r e).sched = e.sched := rfl
@[simp] theorem setReq_lead (slot : Nat) (r : Req) : (setReq slot r e).lead = e.lead := rfl
@[simp] theorem setReq_pwr (slot : Nat) (r : Req) : (setReq slot r e).pwr = e.pwr := rfl
@[simp] theorem setReq_flt (slot : Nat) (r : Req) : (setReq slot r e).flt = e.flt := rfl
@[simp] theorem setReq_ten (slot : Nat) (r : Req) : (setReq slot r e).ten = e.ten := rfl
@[simp] theorem setReq_plans (slot : Nat) (r : Req) : (setReq slot r e).plans = e.plans := rfl
@[simp] theorem setReq_pol (slot : Nat) (r : Req) : (setReq slot r e).pol = e.pol := rfl
@[simp] theorem setReq_models (slot : Nat) (r : Req) : (setReq slot r e).models = e.models := rfl
@[simp] theorem setReq_images (slot : Nat) (r : Req) : (setReq slot r e).images = e.images := rfl
@[simp] theorem setReq_advice (slot : Nat) (r : Req) : (setReq slot r e).advice = e.advice := rfl
@[simp] theorem setReq_aslots (slot : Nat) (r : Req) : (setReq slot r e).aslots = e.aslots := rfl
@[simp] theorem setReq_xsets (slot : Nat) (r : Req) : (setReq slot r e).xsets = e.xsets := rfl
@[simp] theorem setReq_regions (slot : Nat) (r : Req) : (setReq slot r e).regions = e.regions := rfl
@[simp] theorem setReq_heat (slot : Nat) (r : Req) : (setReq slot r e).heat = e.heat := rfl
@[simp] theorem setReq_kv (slot : Nat) (r : Req) : (setReq slot r e).kv = e.kv := rfl
@[simp] theorem setReq_pver (slot : Nat) (r : Req) : (setReq slot r e).pver = e.pver := rfl
@[simp] theorem setReq_learn (slot : Nat) (r : Req) : (setReq slot r e).learn = e.learn := rfl
@[simp] theorem setReq_lanes (slot : Nat) (r : Req) : (setReq slot r e).lanes = e.lanes := rfl
@[simp] theorem setReq_port (slot : Nat) (r : Req) : (setReq slot r e).port = e.port := rfl
@[simp] theorem setReq_relay (slot : Nat) (r : Req) : (setReq slot r e).relay = e.relay := rfl
@[simp] theorem setReq_ket (slot : Nat) (r : Req) : (setReq slot r e).ket = e.ket := rfl
@[simp] theorem setReq_cnt (slot : Nat) (r : Req) : (setReq slot r e).cnt = e.cnt := rfl
@[simp] theorem setReq_trace (slot : Nat) (r : Req) : (setReq slot r e).trace = e.trace := rfl
@[simp] theorem setReq_hang (slot : Nat) (r : Req) : (setReq slot r e).hang = e.hang := rfl
@[simp] theorem setReq_cap (slot : Nat) (r : Req) : (setReq slot r e).cap = e.cap := rfl
@[simp] theorem setReq_latchNo (slot : Nat) (r : Req) : (setReq slot r e).latchNo = e.latchNo := rfl
@[simp] theorem setReq_free (slot : Nat) (r : Req) : (setReq slot r e).free = e.free := rfl

/-! ## modReq -/

@[simp] theorem modReq_mem (slot : Nat) (f : Req → Req) : (modReq slot f e).mem = e.mem := rfl
@[simp] theorem modReq_bad (slot : Nat) (f : Req → Req) : (modReq slot f e).bad = e.bad := rfl
@[simp] theorem modReq_regs (slot : Nat) (f : Req → Req) : (modReq slot f e).regs = e.regs := rfl
@[simp] theorem modReq_hiLatch (slot : Nat) (f : Req → Req) : (modReq slot f e).hiLatch = e.hiLatch := rfl
@[simp] theorem modReq_wrLatch (slot : Nat) (f : Req → Req) : (modReq slot f e).wrLatch = e.wrLatch := rfl
@[simp] theorem modReq_time (slot : Nat) (f : Req → Req) : (modReq slot f e).time = e.time := rfl
@[simp] theorem modReq_sched (slot : Nat) (f : Req → Req) : (modReq slot f e).sched = e.sched := rfl
@[simp] theorem modReq_lead (slot : Nat) (f : Req → Req) : (modReq slot f e).lead = e.lead := rfl
@[simp] theorem modReq_pwr (slot : Nat) (f : Req → Req) : (modReq slot f e).pwr = e.pwr := rfl
@[simp] theorem modReq_flt (slot : Nat) (f : Req → Req) : (modReq slot f e).flt = e.flt := rfl
@[simp] theorem modReq_ten (slot : Nat) (f : Req → Req) : (modReq slot f e).ten = e.ten := rfl
@[simp] theorem modReq_plans (slot : Nat) (f : Req → Req) : (modReq slot f e).plans = e.plans := rfl
@[simp] theorem modReq_pol (slot : Nat) (f : Req → Req) : (modReq slot f e).pol = e.pol := rfl
@[simp] theorem modReq_models (slot : Nat) (f : Req → Req) : (modReq slot f e).models = e.models := rfl
@[simp] theorem modReq_images (slot : Nat) (f : Req → Req) : (modReq slot f e).images = e.images := rfl
@[simp] theorem modReq_advice (slot : Nat) (f : Req → Req) : (modReq slot f e).advice = e.advice := rfl
@[simp] theorem modReq_aslots (slot : Nat) (f : Req → Req) : (modReq slot f e).aslots = e.aslots := rfl
@[simp] theorem modReq_xsets (slot : Nat) (f : Req → Req) : (modReq slot f e).xsets = e.xsets := rfl
@[simp] theorem modReq_regions (slot : Nat) (f : Req → Req) : (modReq slot f e).regions = e.regions := rfl
@[simp] theorem modReq_heat (slot : Nat) (f : Req → Req) : (modReq slot f e).heat = e.heat := rfl
@[simp] theorem modReq_kv (slot : Nat) (f : Req → Req) : (modReq slot f e).kv = e.kv := rfl
@[simp] theorem modReq_pver (slot : Nat) (f : Req → Req) : (modReq slot f e).pver = e.pver := rfl
@[simp] theorem modReq_learn (slot : Nat) (f : Req → Req) : (modReq slot f e).learn = e.learn := rfl
@[simp] theorem modReq_lanes (slot : Nat) (f : Req → Req) : (modReq slot f e).lanes = e.lanes := rfl
@[simp] theorem modReq_port (slot : Nat) (f : Req → Req) : (modReq slot f e).port = e.port := rfl
@[simp] theorem modReq_relay (slot : Nat) (f : Req → Req) : (modReq slot f e).relay = e.relay := rfl
@[simp] theorem modReq_ket (slot : Nat) (f : Req → Req) : (modReq slot f e).ket = e.ket := rfl
@[simp] theorem modReq_cnt (slot : Nat) (f : Req → Req) : (modReq slot f e).cnt = e.cnt := rfl
@[simp] theorem modReq_trace (slot : Nat) (f : Req → Req) : (modReq slot f e).trace = e.trace := rfl
@[simp] theorem modReq_hang (slot : Nat) (f : Req → Req) : (modReq slot f e).hang = e.hang := rfl
@[simp] theorem modReq_cap (slot : Nat) (f : Req → Req) : (modReq slot f e).cap = e.cap := rfl
@[simp] theorem modReq_latchNo (slot : Nat) (f : Req → Req) : (modReq slot f e).latchNo = e.latchNo := rfl
@[simp] theorem modReq_free (slot : Nat) (f : Req → Req) : (modReq slot f e).free = e.free := rfl

/-! ## setLane -/

@[simp] theorem setLane_mem (l : Nat) (x : Lane) : (setLane l x e).mem = e.mem := rfl
@[simp] theorem setLane_bad (l : Nat) (x : Lane) : (setLane l x e).bad = e.bad := rfl
@[simp] theorem setLane_regs (l : Nat) (x : Lane) : (setLane l x e).regs = e.regs := rfl
@[simp] theorem setLane_hiLatch (l : Nat) (x : Lane) : (setLane l x e).hiLatch = e.hiLatch := rfl
@[simp] theorem setLane_wrLatch (l : Nat) (x : Lane) : (setLane l x e).wrLatch = e.wrLatch := rfl
@[simp] theorem setLane_time (l : Nat) (x : Lane) : (setLane l x e).time = e.time := rfl
@[simp] theorem setLane_sched (l : Nat) (x : Lane) : (setLane l x e).sched = e.sched := rfl
@[simp] theorem setLane_lead (l : Nat) (x : Lane) : (setLane l x e).lead = e.lead := rfl
@[simp] theorem setLane_pwr (l : Nat) (x : Lane) : (setLane l x e).pwr = e.pwr := rfl
@[simp] theorem setLane_flt (l : Nat) (x : Lane) : (setLane l x e).flt = e.flt := rfl
@[simp] theorem setLane_ten (l : Nat) (x : Lane) : (setLane l x e).ten = e.ten := rfl
@[simp] theorem setLane_rq (l : Nat) (x : Lane) : (setLane l x e).rq = e.rq := rfl
@[simp] theorem setLane_plans (l : Nat) (x : Lane) : (setLane l x e).plans = e.plans := rfl
@[simp] theorem setLane_pol (l : Nat) (x : Lane) : (setLane l x e).pol = e.pol := rfl
@[simp] theorem setLane_models (l : Nat) (x : Lane) : (setLane l x e).models = e.models := rfl
@[simp] theorem setLane_images (l : Nat) (x : Lane) : (setLane l x e).images = e.images := rfl
@[simp] theorem setLane_advice (l : Nat) (x : Lane) : (setLane l x e).advice = e.advice := rfl
@[simp] theorem setLane_aslots (l : Nat) (x : Lane) : (setLane l x e).aslots = e.aslots := rfl
@[simp] theorem setLane_xsets (l : Nat) (x : Lane) : (setLane l x e).xsets = e.xsets := rfl
@[simp] theorem setLane_regions (l : Nat) (x : Lane) : (setLane l x e).regions = e.regions := rfl
@[simp] theorem setLane_heat (l : Nat) (x : Lane) : (setLane l x e).heat = e.heat := rfl
@[simp] theorem setLane_kv (l : Nat) (x : Lane) : (setLane l x e).kv = e.kv := rfl
@[simp] theorem setLane_pver (l : Nat) (x : Lane) : (setLane l x e).pver = e.pver := rfl
@[simp] theorem setLane_learn (l : Nat) (x : Lane) : (setLane l x e).learn = e.learn := rfl
@[simp] theorem setLane_port (l : Nat) (x : Lane) : (setLane l x e).port = e.port := rfl
@[simp] theorem setLane_relay (l : Nat) (x : Lane) : (setLane l x e).relay = e.relay := rfl
@[simp] theorem setLane_ket (l : Nat) (x : Lane) : (setLane l x e).ket = e.ket := rfl
@[simp] theorem setLane_cnt (l : Nat) (x : Lane) : (setLane l x e).cnt = e.cnt := rfl
@[simp] theorem setLane_trace (l : Nat) (x : Lane) : (setLane l x e).trace = e.trace := rfl
@[simp] theorem setLane_hang (l : Nat) (x : Lane) : (setLane l x e).hang = e.hang := rfl
@[simp] theorem setLane_cap (l : Nat) (x : Lane) : (setLane l x e).cap = e.cap := rfl
@[simp] theorem setLane_latchNo (l : Nat) (x : Lane) : (setLane l x e).latchNo = e.latchNo := rfl
@[simp] theorem setLane_free (l : Nat) (x : Lane) : (setLane l x e).free = e.free := rfl

/-! ## setMp -/

@[simp] theorem setMp_mem (q : Nat) (p : MpPort) : (setMp q p e).mem = e.mem := rfl
@[simp] theorem setMp_bad (q : Nat) (p : MpPort) : (setMp q p e).bad = e.bad := rfl
@[simp] theorem setMp_regs (q : Nat) (p : MpPort) : (setMp q p e).regs = e.regs := rfl
@[simp] theorem setMp_hiLatch (q : Nat) (p : MpPort) : (setMp q p e).hiLatch = e.hiLatch := rfl
@[simp] theorem setMp_wrLatch (q : Nat) (p : MpPort) : (setMp q p e).wrLatch = e.wrLatch := rfl
@[simp] theorem setMp_time (q : Nat) (p : MpPort) : (setMp q p e).time = e.time := rfl
@[simp] theorem setMp_sched (q : Nat) (p : MpPort) : (setMp q p e).sched = e.sched := rfl
@[simp] theorem setMp_lead (q : Nat) (p : MpPort) : (setMp q p e).lead = e.lead := rfl
@[simp] theorem setMp_pwr (q : Nat) (p : MpPort) : (setMp q p e).pwr = e.pwr := rfl
@[simp] theorem setMp_flt (q : Nat) (p : MpPort) : (setMp q p e).flt = e.flt := rfl
@[simp] theorem setMp_ten (q : Nat) (p : MpPort) : (setMp q p e).ten = e.ten := rfl
@[simp] theorem setMp_rq (q : Nat) (p : MpPort) : (setMp q p e).rq = e.rq := rfl
@[simp] theorem setMp_plans (q : Nat) (p : MpPort) : (setMp q p e).plans = e.plans := rfl
@[simp] theorem setMp_pol (q : Nat) (p : MpPort) : (setMp q p e).pol = e.pol := rfl
@[simp] theorem setMp_models (q : Nat) (p : MpPort) : (setMp q p e).models = e.models := rfl
@[simp] theorem setMp_images (q : Nat) (p : MpPort) : (setMp q p e).images = e.images := rfl
@[simp] theorem setMp_advice (q : Nat) (p : MpPort) : (setMp q p e).advice = e.advice := rfl
@[simp] theorem setMp_aslots (q : Nat) (p : MpPort) : (setMp q p e).aslots = e.aslots := rfl
@[simp] theorem setMp_xsets (q : Nat) (p : MpPort) : (setMp q p e).xsets = e.xsets := rfl
@[simp] theorem setMp_regions (q : Nat) (p : MpPort) : (setMp q p e).regions = e.regions := rfl
@[simp] theorem setMp_heat (q : Nat) (p : MpPort) : (setMp q p e).heat = e.heat := rfl
@[simp] theorem setMp_kv (q : Nat) (p : MpPort) : (setMp q p e).kv = e.kv := rfl
@[simp] theorem setMp_pver (q : Nat) (p : MpPort) : (setMp q p e).pver = e.pver := rfl
@[simp] theorem setMp_learn (q : Nat) (p : MpPort) : (setMp q p e).learn = e.learn := rfl
@[simp] theorem setMp_lanes (q : Nat) (p : MpPort) : (setMp q p e).lanes = e.lanes := rfl
@[simp] theorem setMp_relay (q : Nat) (p : MpPort) : (setMp q p e).relay = e.relay := rfl
@[simp] theorem setMp_ket (q : Nat) (p : MpPort) : (setMp q p e).ket = e.ket := rfl
@[simp] theorem setMp_cnt (q : Nat) (p : MpPort) : (setMp q p e).cnt = e.cnt := rfl
@[simp] theorem setMp_trace (q : Nat) (p : MpPort) : (setMp q p e).trace = e.trace := rfl
@[simp] theorem setMp_hang (q : Nat) (p : MpPort) : (setMp q p e).hang = e.hang := rfl
@[simp] theorem setMp_cap (q : Nat) (p : MpPort) : (setMp q p e).cap = e.cap := rfl
@[simp] theorem setMp_latchNo (q : Nat) (p : MpPort) : (setMp q p e).latchNo = e.latchNo := rfl
@[simp] theorem setMp_free (q : Nat) (p : MpPort) : (setMp q p e).free = e.free := rfl

/-! ## modKv -/

@[simp] theorem modKv_mem (f : KvSt → KvSt) : (modKv f e).mem = e.mem := rfl
@[simp] theorem modKv_bad (f : KvSt → KvSt) : (modKv f e).bad = e.bad := rfl
@[simp] theorem modKv_regs (f : KvSt → KvSt) : (modKv f e).regs = e.regs := rfl
@[simp] theorem modKv_hiLatch (f : KvSt → KvSt) : (modKv f e).hiLatch = e.hiLatch := rfl
@[simp] theorem modKv_wrLatch (f : KvSt → KvSt) : (modKv f e).wrLatch = e.wrLatch := rfl
@[simp] theorem modKv_time (f : KvSt → KvSt) : (modKv f e).time = e.time := rfl
@[simp] theorem modKv_sched (f : KvSt → KvSt) : (modKv f e).sched = e.sched := rfl
@[simp] theorem modKv_lead (f : KvSt → KvSt) : (modKv f e).lead = e.lead := rfl
@[simp] theorem modKv_pwr (f : KvSt → KvSt) : (modKv f e).pwr = e.pwr := rfl
@[simp] theorem modKv_flt (f : KvSt → KvSt) : (modKv f e).flt = e.flt := rfl
@[simp] theorem modKv_ten (f : KvSt → KvSt) : (modKv f e).ten = e.ten := rfl
@[simp] theorem modKv_rq (f : KvSt → KvSt) : (modKv f e).rq = e.rq := rfl
@[simp] theorem modKv_plans (f : KvSt → KvSt) : (modKv f e).plans = e.plans := rfl
@[simp] theorem modKv_pol (f : KvSt → KvSt) : (modKv f e).pol = e.pol := rfl
@[simp] theorem modKv_models (f : KvSt → KvSt) : (modKv f e).models = e.models := rfl
@[simp] theorem modKv_images (f : KvSt → KvSt) : (modKv f e).images = e.images := rfl
@[simp] theorem modKv_advice (f : KvSt → KvSt) : (modKv f e).advice = e.advice := rfl
@[simp] theorem modKv_aslots (f : KvSt → KvSt) : (modKv f e).aslots = e.aslots := rfl
@[simp] theorem modKv_xsets (f : KvSt → KvSt) : (modKv f e).xsets = e.xsets := rfl
@[simp] theorem modKv_regions (f : KvSt → KvSt) : (modKv f e).regions = e.regions := rfl
@[simp] theorem modKv_heat (f : KvSt → KvSt) : (modKv f e).heat = e.heat := rfl
@[simp] theorem modKv_pver (f : KvSt → KvSt) : (modKv f e).pver = e.pver := rfl
@[simp] theorem modKv_learn (f : KvSt → KvSt) : (modKv f e).learn = e.learn := rfl
@[simp] theorem modKv_lanes (f : KvSt → KvSt) : (modKv f e).lanes = e.lanes := rfl
@[simp] theorem modKv_port (f : KvSt → KvSt) : (modKv f e).port = e.port := rfl
@[simp] theorem modKv_relay (f : KvSt → KvSt) : (modKv f e).relay = e.relay := rfl
@[simp] theorem modKv_ket (f : KvSt → KvSt) : (modKv f e).ket = e.ket := rfl
@[simp] theorem modKv_cnt (f : KvSt → KvSt) : (modKv f e).cnt = e.cnt := rfl
@[simp] theorem modKv_trace (f : KvSt → KvSt) : (modKv f e).trace = e.trace := rfl
@[simp] theorem modKv_hang (f : KvSt → KvSt) : (modKv f e).hang = e.hang := rfl
@[simp] theorem modKv_cap (f : KvSt → KvSt) : (modKv f e).cap = e.cap := rfl
@[simp] theorem modKv_latchNo (f : KvSt → KvSt) : (modKv f e).latchNo = e.latchNo := rfl
@[simp] theorem modKv_free (f : KvSt → KvSt) : (modKv f e).free = e.free := rfl

/-! ## modPwr -/

@[simp] theorem modPwr_mem (f : PwrSt → PwrSt) : (modPwr f e).mem = e.mem := rfl
@[simp] theorem modPwr_bad (f : PwrSt → PwrSt) : (modPwr f e).bad = e.bad := rfl
@[simp] theorem modPwr_regs (f : PwrSt → PwrSt) : (modPwr f e).regs = e.regs := rfl
@[simp] theorem modPwr_hiLatch (f : PwrSt → PwrSt) : (modPwr f e).hiLatch = e.hiLatch := rfl
@[simp] theorem modPwr_wrLatch (f : PwrSt → PwrSt) : (modPwr f e).wrLatch = e.wrLatch := rfl
@[simp] theorem modPwr_time (f : PwrSt → PwrSt) : (modPwr f e).time = e.time := rfl
@[simp] theorem modPwr_sched (f : PwrSt → PwrSt) : (modPwr f e).sched = e.sched := rfl
@[simp] theorem modPwr_lead (f : PwrSt → PwrSt) : (modPwr f e).lead = e.lead := rfl
@[simp] theorem modPwr_flt (f : PwrSt → PwrSt) : (modPwr f e).flt = e.flt := rfl
@[simp] theorem modPwr_ten (f : PwrSt → PwrSt) : (modPwr f e).ten = e.ten := rfl
@[simp] theorem modPwr_rq (f : PwrSt → PwrSt) : (modPwr f e).rq = e.rq := rfl
@[simp] theorem modPwr_plans (f : PwrSt → PwrSt) : (modPwr f e).plans = e.plans := rfl
@[simp] theorem modPwr_pol (f : PwrSt → PwrSt) : (modPwr f e).pol = e.pol := rfl
@[simp] theorem modPwr_models (f : PwrSt → PwrSt) : (modPwr f e).models = e.models := rfl
@[simp] theorem modPwr_images (f : PwrSt → PwrSt) : (modPwr f e).images = e.images := rfl
@[simp] theorem modPwr_advice (f : PwrSt → PwrSt) : (modPwr f e).advice = e.advice := rfl
@[simp] theorem modPwr_aslots (f : PwrSt → PwrSt) : (modPwr f e).aslots = e.aslots := rfl
@[simp] theorem modPwr_xsets (f : PwrSt → PwrSt) : (modPwr f e).xsets = e.xsets := rfl
@[simp] theorem modPwr_regions (f : PwrSt → PwrSt) : (modPwr f e).regions = e.regions := rfl
@[simp] theorem modPwr_heat (f : PwrSt → PwrSt) : (modPwr f e).heat = e.heat := rfl
@[simp] theorem modPwr_kv (f : PwrSt → PwrSt) : (modPwr f e).kv = e.kv := rfl
@[simp] theorem modPwr_pver (f : PwrSt → PwrSt) : (modPwr f e).pver = e.pver := rfl
@[simp] theorem modPwr_learn (f : PwrSt → PwrSt) : (modPwr f e).learn = e.learn := rfl
@[simp] theorem modPwr_lanes (f : PwrSt → PwrSt) : (modPwr f e).lanes = e.lanes := rfl
@[simp] theorem modPwr_port (f : PwrSt → PwrSt) : (modPwr f e).port = e.port := rfl
@[simp] theorem modPwr_relay (f : PwrSt → PwrSt) : (modPwr f e).relay = e.relay := rfl
@[simp] theorem modPwr_ket (f : PwrSt → PwrSt) : (modPwr f e).ket = e.ket := rfl
@[simp] theorem modPwr_cnt (f : PwrSt → PwrSt) : (modPwr f e).cnt = e.cnt := rfl
@[simp] theorem modPwr_trace (f : PwrSt → PwrSt) : (modPwr f e).trace = e.trace := rfl
@[simp] theorem modPwr_hang (f : PwrSt → PwrSt) : (modPwr f e).hang = e.hang := rfl
@[simp] theorem modPwr_cap (f : PwrSt → PwrSt) : (modPwr f e).cap = e.cap := rfl
@[simp] theorem modPwr_latchNo (f : PwrSt → PwrSt) : (modPwr f e).latchNo = e.latchNo := rfl
@[simp] theorem modPwr_free (f : PwrSt → PwrSt) : (modPwr f e).free = e.free := rfl

/-! ## modLead -/

@[simp] theorem modLead_mem (f : LeadSt → LeadSt) : (modLead f e).mem = e.mem := rfl
@[simp] theorem modLead_bad (f : LeadSt → LeadSt) : (modLead f e).bad = e.bad := rfl
@[simp] theorem modLead_regs (f : LeadSt → LeadSt) : (modLead f e).regs = e.regs := rfl
@[simp] theorem modLead_hiLatch (f : LeadSt → LeadSt) : (modLead f e).hiLatch = e.hiLatch := rfl
@[simp] theorem modLead_wrLatch (f : LeadSt → LeadSt) : (modLead f e).wrLatch = e.wrLatch := rfl
@[simp] theorem modLead_time (f : LeadSt → LeadSt) : (modLead f e).time = e.time := rfl
@[simp] theorem modLead_sched (f : LeadSt → LeadSt) : (modLead f e).sched = e.sched := rfl
@[simp] theorem modLead_pwr (f : LeadSt → LeadSt) : (modLead f e).pwr = e.pwr := rfl
@[simp] theorem modLead_flt (f : LeadSt → LeadSt) : (modLead f e).flt = e.flt := rfl
@[simp] theorem modLead_ten (f : LeadSt → LeadSt) : (modLead f e).ten = e.ten := rfl
@[simp] theorem modLead_rq (f : LeadSt → LeadSt) : (modLead f e).rq = e.rq := rfl
@[simp] theorem modLead_plans (f : LeadSt → LeadSt) : (modLead f e).plans = e.plans := rfl
@[simp] theorem modLead_pol (f : LeadSt → LeadSt) : (modLead f e).pol = e.pol := rfl
@[simp] theorem modLead_models (f : LeadSt → LeadSt) : (modLead f e).models = e.models := rfl
@[simp] theorem modLead_images (f : LeadSt → LeadSt) : (modLead f e).images = e.images := rfl
@[simp] theorem modLead_advice (f : LeadSt → LeadSt) : (modLead f e).advice = e.advice := rfl
@[simp] theorem modLead_aslots (f : LeadSt → LeadSt) : (modLead f e).aslots = e.aslots := rfl
@[simp] theorem modLead_xsets (f : LeadSt → LeadSt) : (modLead f e).xsets = e.xsets := rfl
@[simp] theorem modLead_regions (f : LeadSt → LeadSt) : (modLead f e).regions = e.regions := rfl
@[simp] theorem modLead_heat (f : LeadSt → LeadSt) : (modLead f e).heat = e.heat := rfl
@[simp] theorem modLead_kv (f : LeadSt → LeadSt) : (modLead f e).kv = e.kv := rfl
@[simp] theorem modLead_pver (f : LeadSt → LeadSt) : (modLead f e).pver = e.pver := rfl
@[simp] theorem modLead_learn (f : LeadSt → LeadSt) : (modLead f e).learn = e.learn := rfl
@[simp] theorem modLead_lanes (f : LeadSt → LeadSt) : (modLead f e).lanes = e.lanes := rfl
@[simp] theorem modLead_port (f : LeadSt → LeadSt) : (modLead f e).port = e.port := rfl
@[simp] theorem modLead_relay (f : LeadSt → LeadSt) : (modLead f e).relay = e.relay := rfl
@[simp] theorem modLead_ket (f : LeadSt → LeadSt) : (modLead f e).ket = e.ket := rfl
@[simp] theorem modLead_cnt (f : LeadSt → LeadSt) : (modLead f e).cnt = e.cnt := rfl
@[simp] theorem modLead_trace (f : LeadSt → LeadSt) : (modLead f e).trace = e.trace := rfl
@[simp] theorem modLead_hang (f : LeadSt → LeadSt) : (modLead f e).hang = e.hang := rfl
@[simp] theorem modLead_cap (f : LeadSt → LeadSt) : (modLead f e).cap = e.cap := rfl
@[simp] theorem modLead_latchNo (f : LeadSt → LeadSt) : (modLead f e).latchNo = e.latchNo := rfl
@[simp] theorem modLead_free (f : LeadSt → LeadSt) : (modLead f e).free = e.free := rfl

/-! ## modFlt -/

@[simp] theorem modFlt_mem (f : FltSt → FltSt) : (modFlt f e).mem = e.mem := rfl
@[simp] theorem modFlt_bad (f : FltSt → FltSt) : (modFlt f e).bad = e.bad := rfl
@[simp] theorem modFlt_regs (f : FltSt → FltSt) : (modFlt f e).regs = e.regs := rfl
@[simp] theorem modFlt_hiLatch (f : FltSt → FltSt) : (modFlt f e).hiLatch = e.hiLatch := rfl
@[simp] theorem modFlt_wrLatch (f : FltSt → FltSt) : (modFlt f e).wrLatch = e.wrLatch := rfl
@[simp] theorem modFlt_time (f : FltSt → FltSt) : (modFlt f e).time = e.time := rfl
@[simp] theorem modFlt_sched (f : FltSt → FltSt) : (modFlt f e).sched = e.sched := rfl
@[simp] theorem modFlt_lead (f : FltSt → FltSt) : (modFlt f e).lead = e.lead := rfl
@[simp] theorem modFlt_pwr (f : FltSt → FltSt) : (modFlt f e).pwr = e.pwr := rfl
@[simp] theorem modFlt_ten (f : FltSt → FltSt) : (modFlt f e).ten = e.ten := rfl
@[simp] theorem modFlt_rq (f : FltSt → FltSt) : (modFlt f e).rq = e.rq := rfl
@[simp] theorem modFlt_plans (f : FltSt → FltSt) : (modFlt f e).plans = e.plans := rfl
@[simp] theorem modFlt_pol (f : FltSt → FltSt) : (modFlt f e).pol = e.pol := rfl
@[simp] theorem modFlt_models (f : FltSt → FltSt) : (modFlt f e).models = e.models := rfl
@[simp] theorem modFlt_images (f : FltSt → FltSt) : (modFlt f e).images = e.images := rfl
@[simp] theorem modFlt_advice (f : FltSt → FltSt) : (modFlt f e).advice = e.advice := rfl
@[simp] theorem modFlt_aslots (f : FltSt → FltSt) : (modFlt f e).aslots = e.aslots := rfl
@[simp] theorem modFlt_xsets (f : FltSt → FltSt) : (modFlt f e).xsets = e.xsets := rfl
@[simp] theorem modFlt_regions (f : FltSt → FltSt) : (modFlt f e).regions = e.regions := rfl
@[simp] theorem modFlt_heat (f : FltSt → FltSt) : (modFlt f e).heat = e.heat := rfl
@[simp] theorem modFlt_kv (f : FltSt → FltSt) : (modFlt f e).kv = e.kv := rfl
@[simp] theorem modFlt_pver (f : FltSt → FltSt) : (modFlt f e).pver = e.pver := rfl
@[simp] theorem modFlt_learn (f : FltSt → FltSt) : (modFlt f e).learn = e.learn := rfl
@[simp] theorem modFlt_lanes (f : FltSt → FltSt) : (modFlt f e).lanes = e.lanes := rfl
@[simp] theorem modFlt_port (f : FltSt → FltSt) : (modFlt f e).port = e.port := rfl
@[simp] theorem modFlt_relay (f : FltSt → FltSt) : (modFlt f e).relay = e.relay := rfl
@[simp] theorem modFlt_ket (f : FltSt → FltSt) : (modFlt f e).ket = e.ket := rfl
@[simp] theorem modFlt_cnt (f : FltSt → FltSt) : (modFlt f e).cnt = e.cnt := rfl
@[simp] theorem modFlt_trace (f : FltSt → FltSt) : (modFlt f e).trace = e.trace := rfl
@[simp] theorem modFlt_hang (f : FltSt → FltSt) : (modFlt f e).hang = e.hang := rfl
@[simp] theorem modFlt_cap (f : FltSt → FltSt) : (modFlt f e).cap = e.cap := rfl
@[simp] theorem modFlt_latchNo (f : FltSt → FltSt) : (modFlt f e).latchNo = e.latchNo := rfl
@[simp] theorem modFlt_free (f : FltSt → FltSt) : (modFlt f e).free = e.free := rfl

/-! ## answer -/

@[simp] theorem answer_mem (d : U64) (err : Bool) : (answer d err e).mem = e.mem := rfl
@[simp] theorem answer_bad (d : U64) (err : Bool) : (answer d err e).bad = e.bad := rfl
@[simp] theorem answer_regs (d : U64) (err : Bool) : (answer d err e).regs = e.regs := rfl
@[simp] theorem answer_hiLatch (d : U64) (err : Bool) : (answer d err e).hiLatch = e.hiLatch := rfl
@[simp] theorem answer_wrLatch (d : U64) (err : Bool) : (answer d err e).wrLatch = e.wrLatch := rfl
@[simp] theorem answer_time (d : U64) (err : Bool) : (answer d err e).time = e.time := rfl
@[simp] theorem answer_sched (d : U64) (err : Bool) : (answer d err e).sched = e.sched := rfl
@[simp] theorem answer_lead (d : U64) (err : Bool) : (answer d err e).lead = e.lead := rfl
@[simp] theorem answer_pwr (d : U64) (err : Bool) : (answer d err e).pwr = e.pwr := rfl
@[simp] theorem answer_flt (d : U64) (err : Bool) : (answer d err e).flt = e.flt := rfl
@[simp] theorem answer_ten (d : U64) (err : Bool) : (answer d err e).ten = e.ten := rfl
@[simp] theorem answer_rq (d : U64) (err : Bool) : (answer d err e).rq = e.rq := rfl
@[simp] theorem answer_plans (d : U64) (err : Bool) : (answer d err e).plans = e.plans := rfl
@[simp] theorem answer_pol (d : U64) (err : Bool) : (answer d err e).pol = e.pol := rfl
@[simp] theorem answer_models (d : U64) (err : Bool) : (answer d err e).models = e.models := rfl
@[simp] theorem answer_images (d : U64) (err : Bool) : (answer d err e).images = e.images := rfl
@[simp] theorem answer_advice (d : U64) (err : Bool) : (answer d err e).advice = e.advice := rfl
@[simp] theorem answer_aslots (d : U64) (err : Bool) : (answer d err e).aslots = e.aslots := rfl
@[simp] theorem answer_xsets (d : U64) (err : Bool) : (answer d err e).xsets = e.xsets := rfl
@[simp] theorem answer_regions (d : U64) (err : Bool) : (answer d err e).regions = e.regions := rfl
@[simp] theorem answer_heat (d : U64) (err : Bool) : (answer d err e).heat = e.heat := rfl
@[simp] theorem answer_kv (d : U64) (err : Bool) : (answer d err e).kv = e.kv := rfl
@[simp] theorem answer_pver (d : U64) (err : Bool) : (answer d err e).pver = e.pver := rfl
@[simp] theorem answer_learn (d : U64) (err : Bool) : (answer d err e).learn = e.learn := rfl
@[simp] theorem answer_lanes (d : U64) (err : Bool) : (answer d err e).lanes = e.lanes := rfl
@[simp] theorem answer_relay (d : U64) (err : Bool) : (answer d err e).relay = e.relay := rfl
@[simp] theorem answer_ket (d : U64) (err : Bool) : (answer d err e).ket = e.ket := rfl
@[simp] theorem answer_cnt (d : U64) (err : Bool) : (answer d err e).cnt = e.cnt := rfl
@[simp] theorem answer_trace (d : U64) (err : Bool) : (answer d err e).trace = e.trace := rfl
@[simp] theorem answer_hang (d : U64) (err : Bool) : (answer d err e).hang = e.hang := rfl
@[simp] theorem answer_cap (d : U64) (err : Bool) : (answer d err e).cap = e.cap := rfl
@[simp] theorem answer_latchNo (d : U64) (err : Bool) : (answer d err e).latchNo = e.latchNo := rfl
@[simp] theorem answer_free (d : U64) (err : Bool) : (answer d err e).free = e.free := rfl

/-! ## The field an update changes -/

@[simp] theorem setTen_self (tc : Nat) (t : Tenant) : ten (setTen tc t e) tc = t := by simp [ten, setTen]
theorem setTen_other (tc k : Nat) (t : Tenant) (h : k ≠ tc) : ten (setTen tc t e) k = ten e k := by
  simp [ten, setTen, tget_tset_ne _ _ _ h]
@[simp] theorem modTen_self (tc : Nat) (f : Tenant → Tenant) : ten (modTen tc f e) tc = f (ten e tc) := by simp [modTen]
theorem modTen_other (tc k : Nat) (f : Tenant → Tenant) (h : k ≠ tc) : ten (modTen tc f e) k = ten e k := by
  simp [modTen, setTen_other e tc k _ h]
@[simp] theorem laneOf_setLane_self (l : Nat) (x : Lane) : laneOf (setLane l x e) l = x := by simp [laneOf, setLane]
theorem laneOf_setLane_other (l k : Nat) (x : Lane) (h : k ≠ l) : laneOf (setLane l x e) k = laneOf e k := by
  simp [laneOf, setLane, tget_tset_ne _ _ _ h]
@[simp] theorem reqAt_setReq_self (slot : Nat) (r : Req) : reqAt (setReq slot r e) slot = some r := by
  simp [reqAt, setReq]
theorem reqAt_setReq_other (slot k : Nat) (r : Req) (h : k ≠ slot) : reqAt (setReq slot r e) k = reqAt e k := by
  simp [reqAt, setReq, tget?_tset_ne _ _ h]
theorem reqAt_modReq (slot k : Nat) (f : Req → Req) :
    reqAt (modReq slot f e) k = if k = slot then (reqAt e k).map f else reqAt e k := by
  simp [reqAt, modReq, tget?_tmod]
@[simp] theorem mpOf_setMp_self (q : Nat) (p : MpPort) : mpOf (setMp q p e) q = p := by simp [mpOf, setMp]
theorem mpOf_setMp_other (q k : Nat) (p : MpPort) (h : k ≠ q) : mpOf (setMp q p e) k = mpOf e k := by
  simp [mpOf, setMp, tget_tset_ne _ _ _ h]

/-- A register reads as it was set. -/
@[simp] theorem reg_setReg_self (o : Nat) (v : U64) : reg (setReg o v e) o = v := by
  unfold reg setReg
  dsimp only
  split
  · rename_i h; simp [h]
  · simp

/-- Setting a register leaves every other as it was. -/
theorem reg_setReg_other (o p : Nat) (v : U64) (h : p ≠ o) : reg (setReg o v e) p = reg e p := by
  unfold reg setReg
  dsimp only
  split
  · rw [tget?_tdel_ne _ h]
  · rw [tget?_tset_ne _ _ h]

@[simp] theorem reg_setRegF_self (o hi lo x : Nat) : reg (setRegF o hi lo x e) o = setField (reg e o) hi lo x := by
  simp [setRegF]
theorem reg_setRegF_other (o p hi lo x : Nat) (h : p ≠ o) : reg (setRegF o hi lo x e) p = reg e p := by
  simp [setRegF, reg_setReg_other _ o p _ h]

end Sys2Proof.Laws
end

