-- ==== Sys2Proof/Laws/Ops.lean ====
section
/-! SUPPORT. One law per shared operation: what a step and a row answer, and everything the memory, vector, trace,
status-ring and reply operations can change. -/

namespace Sys2Proof.Laws

open Sys2Proof Sys2Proof.Machine

/-! ## Steps and rows -/

theorem step_cons (c : Instr) (rest : List Instr) (s : State) (h : s.pending = c :: rest) :
    step s = exec c { s with pending := rest } := by unfold step; rw [h]

theorem step_nil (s : State) (h : s.pending = []) : step s = .next { s with eng := tick s.eng } := by
  unfold step; rw [h]

@[simp] theorem onAny_eq (f : Engine → Engine) (s : State) : onAny f s = .next { s with eng := f s.eng } := rfl

theorem whenUp_up {f : Engine → Engine} {e : Engine} (h : inService e = true) : whenUp f e = f e := by
  simp [whenUp, h]

theorem whenUp_down {f : Engine → Engine} {e : Engine} (h : inService e = false) : whenUp f e = e := by
  simp [whenUp, h]

theorem onEng_up {f : Engine → Engine} {s : State} (h : inService s.eng = true) :
    onEng f s = .next { s with eng := f s.eng } := by simp [onEng, whenUp_up h]

theorem onEng_down {f : Engine → Engine} {s : State} (h : inService s.eng = false) : onEng f s = .next s := by
  simp [onEng, whenUp_down h]

/-- The engine is frozen neither while no capture is in progress nor once every command one held is acted on. -/
theorem frozen_eq_false {e : Engine} : frozen e = false ↔ e.cap.busy = false ∧ e.cap.held = [] := by
  simp [frozen, List.isEmpty_iff]

theorem capGate_free {i : Instr} {f : Engine → Engine} {e : Engine} (h : frozen e = false) : capGate i f e = f e := by
  simp [capGate, h]

theorem capGate_frozen {i : Instr} {f : Engine → Engine} {e : Engine} (h : frozen e = true) :
    capGate i f e = { e with cap := { e.cap with held := e.cap.held ++ [i] } } := by simp [capGate, h]

/-- A row of an opcode, in service and with no capture frozen, applies its packet. -/
theorem row_free {i : Instr} {h : Hdr} {cmd : Cmd} {s : State} (hs : inService s.eng = true)
    (hc : frozen s.eng = false) : row i h cmd s = .next { s with eng := applyNow h cmd s.eng } := by
  unfold row; rw [onEng_up hs, capGate_free hc]

/-- Nothing waits on a reply: what follows it changes nothing. -/
theorem settled_quiet {e : Engine} (h1 : e.pwr.owed = []) (h2 : e.lanes.reclaims = []) (h3 : e.cap.atOnce = false) :
    settled e = e := by
  obtain ⟨_, _, _, _, _, _, _, _, pwr, _, _, _, _, _, _, _, _, _, _, _, _, _, _, _, lanes, _, _, _, _, _, _, cap, _, _⟩ := e
  obtain ⟨⟩ := pwr
  obtain ⟨⟩ := lanes
  simp only at h1 h2 h3
  subst h1 h2
  simp [settled, payNow, payOwed, modPwr, reclaimSweep, reclaimOrders, reclaimDrop, capNow, h3]

/-! ## What the operations can change -/

/-- Issuing a memory request changes the ports only. -/
theorem memIssue_frame (r : MemReq) (e : Engine) : ∃ p, memIssue r e = { e with port := p } := by
  unfold memIssue
  dsimp only
  split
  · exact ⟨_, rfl⟩
  · exact ⟨_, rfl⟩

/-- Raising a vector changes registers and ports only. -/
theorem raiseVec_frame (v : VecId) (e : Engine) : ∃ r p, raiseVec v e = { e with regs := r, port := p } := by
  unfold raiseVec
  dsimp only
  split
  · exact ⟨_, _, rfl⟩
  · split
    · exact ⟨_, _, rfl⟩
    · exact ⟨_, _, rfl⟩

theorem releaseVec_frame (v : VecId) (e : Engine) : ∃ r p, releaseVec v e = { e with regs := r, port := p } := by
  unfold releaseVec
  dsimp only
  split
  · obtain ⟨r, p, h⟩ := raiseVec_frame v (setReg (vecBase v + 12) (setField (reg e (vecBase v + 12)) 1 1 0) e)
    exact ⟨r, p, by rw [h]; rfl⟩
  · exact ⟨_, _, rfl⟩

/-- A count of open overflow changes registers and the free counter only. -/
theorem bumpOpen_frame (o hi lo n : Nat) (e : Engine) : ∃ r k, bumpOpen o hi lo n e = { e with regs := r, free := k } := by
  unfold bumpOpen
  dsimp only
  split <;> exact ⟨_, _, rfl⟩

theorem count_frame (g i n : Nat) (e : Engine) : ∃ c, count g i n e = { e with cnt := c } := by
  unfold count
  split <;> exact ⟨_, rfl⟩

theorem tcount_frame (g i n : Nat) (e : Engine) : ∃ c, tcount g i n e = { e with cnt := c } := by
  unfold tcount
  split <;> exact ⟨_, rfl⟩

/-- Entering a trace record changes the trace, registers and the free counter only. -/
theorem tracePush_frame (ty : Nat) (b : List Byte) (e : Engine) :
    ∃ t r k, tracePush ty b e = { e with trace := t, regs := r, free := k } := by
  unfold tracePush
  dsimp only
  generalize (if ty = 1 ∨ ty = 2 ∨ ty = 5 then 2048 else 1792) = cap
  split
  · exact ⟨_, _, _, rfl⟩
  · split
    · exact ⟨_, _, _, rfl⟩
    · obtain ⟨r, k, h⟩ := bumpOpen_frame rDBG_TRACE_STAT 63 32 1
        { e with trace := { e.trace with lost := e.trace.lost + 1 } }
      exact ⟨_, r, k, by rw [h]⟩

/-- What a status-ring operation makes of an engine: memory (canonical if it was), registers, tenants and ports may
change, everything else is as it was. -/
def RingOnly (e e' : Engine) : Prop :=
  ∃ m r t p, e' = { e with mem := m, regs := r, ten := t, port := p } ∧ (memWf e.mem = true → memWf m = true)

theorem RingOnly.refl (e : Engine) : RingOnly e e := ⟨_, _, _, _, rfl, id⟩

theorem RingOnly.trans {a b c : Engine} (h1 : RingOnly a b) (h2 : RingOnly b c) : RingOnly a c := by
  obtain ⟨m, r, t, p, rfl, w⟩ := h1
  obtain ⟨m', r', t', p', rfl, w'⟩ := h2
  exact ⟨m', r', t', p', rfl, fun h => w' (w h)⟩

theorem modRing_only (tc : Nat) (f : TRing → TRing) (e : Engine) : RingOnly e (modRing tc f e) :=
  ⟨_, _, _, _, rfl, id⟩

theorem setRegF_only (o hi lo x : Nat) (e : Engine) : RingOnly e (setRegF o hi lo x e) := ⟨_, _, _, _, rfl, id⟩

theorem setReg_only (o : Nat) (v : U64) (e : Engine) : RingOnly e (setReg o v e) := ⟨_, _, _, _, rfl, id⟩

theorem srWrite_only (tc : Nat) (n : StEntry) (e : Engine) : RingOnly e (srWrite tc n e) := by
  unfold srWrite
  dsimp only
  obtain ⟨p, h⟩ := memIssue_frame _ _
  rw [h]
  exact ⟨_, _, _, _, rfl, fun w => memWrite_wf _ _ _ w⟩

theorem srDrain_only (tc fuel : Nat) : ∀ e : Engine, RingOnly e (srDrain tc fuel e) := by
  induction fuel with
  | zero => exact fun e => .refl e
  | succ n ih =>
    intro e
    unfold srDrain
    split
    · exact .refl e
    · split
      · exact ((modRing_only tc _ e).trans (srWrite_only tc _ _)).trans (ih _)
      · exact .refl e

theorem srFlush_only (tc : Nat) (e : Engine) : RingOnly e (srFlush tc e) := by
  unfold srFlush
  dsimp only
  split
  · exact ((srDrain_only tc _ e).trans (modRing_only tc _ _)).trans (srDrain_only tc _ _)
  · exact srDrain_only tc _ e

theorem srStall_only (tc : Nat) (e : Engine) : RingOnly e (srStall tc e) := by
  unfold srStall
  split
  · exact setRegF_only _ _ _ _ e
  · exact .refl e

/-- Queueing an entry for a status ring changes memory, registers, tenants and ports only. -/
theorem stPush_only (tc : Nat) (n : StEntry) (e : Engine) : RingOnly e (stPush tc n e) := by
  unfold stPush
  dsimp only
  split
  · exact .refl e
  · split
    · exact (modRing_only tc _ e).trans (setRegF_only _ _ _ _ _)
    · exact ((modRing_only tc _ e).trans (srFlush_only tc _)).trans (srStall_only tc _)

theorem notice_only (tc st result target : Nat) (e : Engine) : RingOnly e (notice tc st result target e) :=
  stPush_only tc _ e

/-- A reply changes memory, registers, tenants and ports only. -/
theorem reply_only (h : Hdr) (op st result : Nat) (e : Engine) : RingOnly e (reply h op st result e) :=
  stPush_only _ _ e

theorem opComplete_only (h : Hdr) (e : Engine) : RingOnly e (opComplete h e) := notice_only _ _ _ _ e

/-- A relay message changes the relay state and the counters only. -/
theorem relaySend_frame (k : Nat) (d : U32) (p : List Byte) (e : Engine) :
    ∃ r c, relaySend k d p e = { e with relay := r, cnt := c } := by
  unfold relaySend
  split
  · exact ⟨_, _, rfl⟩
  · dsimp only
    obtain ⟨c, h⟩ := count_frame 1 16 _ _
    rw [h]
    exact ⟨_, _, rfl⟩

/-- A context's anchor written again changes only the list of lost ones. -/
theorem reanchor_frame (tc : Nat) (e : Engine) :
    reanchor tc e = { e with pwr := { e.pwr with anchorLost := e.pwr.anchorLost.filter (· != tc) } } := rfl

theorem reanchor_eq {tc : Nat} {e : Engine} (h : tc ∉ e.pwr.anchorLost) : reanchor tc e = e := by
  have : e.pwr.anchorLost.filter (· != tc) = e.pwr.anchorLost :=
    List.filter_eq_self.2 (fun x hx => by simpa using ne_of_mem_of_not_mem hx h)
  rw [reanchor_frame, this]

/-- An external event is noted with the current stride, and nothing else happens yet (R41). -/
theorem addExt_frame (x : ExtEv) (e : Engine) :
    addExt x e = { e with sched := { e.sched with ext := e.sched.ext ++ [(e.time.num, x)] } } := rfl

theorem strideWork_open {f : Engine → Engine} {e : Engine} (h : entryDeep e = false) : strideWork f e = f e := by
  simp [strideWork, h]

theorem strideWork_deep {f : Engine → Engine} {e : Engine} (h : entryDeep e = true) : strideWork f e = e := by
  simp [strideWork, h]

/-- Containment that is registered changes the stride's external events or the faults that are due, and nothing else. -/
theorem faultContain_frame (c : FaultClass) (tc : U8) (obj : FaultObj) (scope : Nat) (e : Engine) :
    ∃ x d, faultContain c tc obj scope e = { e with
      sched := { e.sched with ext := e.sched.ext ++ x }, flt := { e.flt with due := e.flt.due ++ d } } := by
  unfold faultContain
  split
  · exact ⟨[], [], by simp⟩
  · exact ⟨[(e.time.num, .teardown tc c)], [], by simp [addExt]⟩
  · exact ⟨[], [{ cls := c, tc := tc, obj := obj }], by simp⟩

/-- Two changes of one tenant's ring are one. -/
theorem modRing_modRing (tc : Nat) (f g : TRing → TRing) (e : Engine) :
    modRing tc g (modRing tc f e) = modRing tc (fun r => g (f r)) e := by
  simp [modRing, modTen, setTen, ten]

/-- Units pushed on a manifest port change that port only. -/
theorem mpPush_frame (q : Nat) (us : List MpUnit) (e : Engine) :
    ∃ m, mpPush q us e = { e with port := { e.port with mp := m } } := by
  unfold mpPush
  split <;> exact ⟨_, rfl⟩

end Sys2Proof.Laws
end

