-- ==== Sys2Proof/Laws/Access.lean ====
section
/-! SUPPORT. Laws of the control port: an access while the port answers at once, and the kinds of access it does. -/

namespace Sys2Proof.Laws

open Sys2Proof Sys2Proof.Machine

/-- The port does an access at once when the engine is in neither reset nor a state below IDLE, nor entering one. -/
theorem opCp_open {e : Engine} (h1 : inReset e = false) (h2 : e.pwr.eng < 3)
    (h3 : ∀ x ∈ e.pwr.entry, x.quad = none → x.target < 3) (a : CpAccess) : opCp a e = cpDo a e := by
  have e1 : e.pwr.entry.any (fun x => x.quad.isNone && x.target == 3) = false := by
    simp only [List.any_eq_false, Bool.and_eq_true, Option.isNone_iff_eq_none, beq_iff_eq]
    intro x hx hq
    have := h3 x hx hq.1
    omega
  have e2 : e.pwr.entry.any (fun x => x.quad.isNone && decide (4 ≤ x.target)) = false := by
    simp only [List.any_eq_false, Bool.and_eq_true, Option.isNone_iff_eq_none, decide_eq_true_eq]
    intro x hx hq
    have := h3 x hx hq.1
    omega
  have hw : cpWake e = e := by
    unfold cpWake
    rw [if_neg]
    rintro (h | h)
    · omega
    · simp [e1] at h
  have h4 : ¬ (3 ≤ e.pwr.eng) := by omega
  simp [opCp, h1, hw, cpWaits, h4, e2]

theorem inView {o : Offset} {priv : Bool} (hp : priv = true ∨ 0x10000 ≤ o.toNat) :
    (!priv && decide (o.toNat < 0x10000)) = false := by
  rcases hp with rfl | hp
  · rfl
  · simp [Nat.not_lt.2 hp]

/-- A 32-bit write in service: alignment and view judged, then the register written. -/
theorem cpDo_write32 (o : Offset) (v : U64) (priv : Bool) (e : Engine) (h : o.toNat % 4 = 0)
    (hp : priv = true ∨ 0x10000 ≤ o.toNat) :
    cpDo { write := true, off := o, size64 := false, priv := priv, data := v } e
      = answer 0 false (write32 o.toNat v priv e) := by
  unfold cpDo
  simp [h, inView hp]

/-- A 64-bit write in service. -/
theorem cpDo_write64 (o : Offset) (v : U64) (priv : Bool) (e : Engine) (h : o.toNat % 8 = 0)
    (hp : priv = true ∨ 0x10000 ≤ o.toNat) :
    cpDo { write := true, off := o, size64 := true, priv := priv, data := v } e
      = answer 0 false (write64 o.toNat v priv e) := by
  unfold cpDo
  simp [h, inView hp]

/-- A 32-bit read in service. -/
theorem cpDo_read32 (o : Offset) (priv : Bool) (e : Engine) (h : o.toNat % 4 = 0)
    (hp : priv = true ∨ 0x10000 ≤ o.toNat) :
    cpDo (rdAcc o false priv) e = answer (read32 o.toNat e).1 false (read32 o.toNat e).2 := by
  unfold cpDo rdAcc
  rcases hp with rfl | hp
  · simp [h]
  · simp [h, Nat.not_lt.2 hp]

/-- A register of 32 bits takes a 32-bit write whole. -/
theorem write32_narrow {o : Nat} {r : RegInfo} (v : U64) (priv : Bool) (e : Engine) (h : infoAt o = some r)
    (hw : r.wide = false) : write32 o v priv e = writeWhole r (v &&& 0xFFFFFFFF) priv e := by
  simp [write32, h, hw]

/-- A register of 64 bits takes a 64-bit write whole; a low half that waited is dropped. -/
theorem write64_wide {o : Nat} {r : RegInfo} (v : U64) (priv : Bool) (e : Engine) (h : infoAt o = some r)
    (hw : r.wide = true) :
    write64 o v priv e = writeWhole r v priv { e with wrLatch := tdel e.wrLatch o } := by
  simp [write64, h, hw]

/-- The low half of a 64-bit register waits for the high half (R310). -/
theorem write32_low {o : Nat} {r : RegInfo} (v : U64) (priv : Bool) (e : Engine) (h : infoAt o = some r)
    (hw : r.wide = true) :
    write32 o v priv e = { e with wrLatch := tset e.wrLatch o ((v &&& 0xFFFFFFFF).setWidth 32) } := by
  simp [write32, h, hw]

end Sys2Proof.Laws
end

