-- ==== Sys2Proof/WellFormed.lean ====
section
/-! DEFINITION. Well-formed commands: the lengths a command's operands must have to be what its row
carries. Everything a sender may get wrong on the wire is well-formed and judged by the engine; only
operands no signal can carry are excluded. -/

namespace Sys2Proof

/-- A command packet is 64 bytes (R61, 03_command_packets.md). -/
def wfPacket (p : List Byte) : Bool := p.length == 64

/-- A drain block carries 1,024 payload bytes (R136). -/
def wfPayload (p : List Byte) : Bool := p.length == 1024

/-- A relay message is a 32-byte header and at most 8,448 payload bytes, in whole 64-byte flits or
cut to its length (R321). -/
def wfMessage (m : List Byte) : Bool := 32 ≤ m.length && m.length ≤ 8512

/-- A memory read response carries 64 bytes, a write response none (R319). -/
def wfResponse (d : List Byte) : Bool := d.length == 64 || d.isEmpty

/-- A CMD that the table of R332 does not define. -/
def wfUndefined (cmd : U8) : Bool := decide (4 < cmd.toNat)

def Instr.wf : Instr → Bool
  | .packetFetch _ p _ => wfPacket p
  | .logitsBlock _ _ p => wfPayload p
  | .stashWord _ _ p => wfPayload p
  | .laneWord _ _ p => wfPayload p
  | .laneReport _ _ p => wfPayload p
  | .amaxWord _ _ p => wfPayload p
  | .digestWord _ _ p => wfPayload p
  | .memoryResponse _ _ _ d => wfResponse d
  | .beacon m => wfMessage m
  | .depart m => wfMessage m
  | .probe m => wfMessage m
  | .probeReply m => wfMessage m
  | .offer m => wfMessage m
  | .accept m => wfMessage m
  | .refuse m => wfMessage m
  | .complete m => wfMessage m
  | .abort m => wfMessage m
  | .discardedRelayMessage m _ => wfMessage m
  | .kettleUndefinedCmd _ cmd _ _ => wfUndefined cmd
  | _ => true

end Sys2Proof
end

