-- ==== Sys2Proof/Tests/Slice0.lean ====
section
/-! SUPPORT. Tests: the checks of WellFormed refuse what they name; small steps against values the spec gives; and for
every statement with hypotheses a state and operands that meet them. -/

namespace Sys2Proof.Tests

section

/- Kernel checks wait for every declaration before them; one at a time they take one thread. -/
set_option Elab.async false

open Sys2Proof.Machine Sys2Proof.Certs

/-! ## Helpers -/

/-- An engine in RUN with Q0 as its Pacer, changed by `f`; no command waits. -/
def run (f : Engine → Engine) : State :=
  { eng := f { Engine.fresh with pwr := { PwrSt.fresh with eng := 0 }, lead := { LeadSt.fresh with pacer := some 0 } },
    pending := [] }

def power (f : PwrSt → PwrSt) : State := run (fun e => { e with pwr := f e.pwr })

/-- The engine after a command; the fresh engine if the command does not go on. -/
def after (i : Instr) (s : State) : Engine := match exec i s with
  | .next t => t.eng
  | _ => Engine.fresh

def hdr : Hdr := { ring := 3, vec := 2, irq := true, target := 3, tag := 9, ridx := 0x12347 }

/-- TC3 open. -/
def open3 (f : Tenant → Tenant) (e : Engine) : Engine := modTen 3 f (modTen 3 (fun t => { t with st := .opened }) e)

def rings3 (e : Engine) : Engine :=
  setReg (rCP_CRING_BASE 3) 0x10006 (setReg (rCP_SRING_BASE 3) 0x20006 (setReg (rCP_RING_CTRL 3) 3
    (setReg (rCP_CRING_TAIL 3) 9 (setReg (rCP_CRING_HEAD 3) 5 e))))

def desc7 : Desc := { parseDesc [] with rid := 7, greedy := true, maxTokens := 9, promptLen := 4 }

def req7 : Req := {
  tc := 3, d := desc7, e := { EngRec.fresh with st := .running, gen := 2, kvpos := 5 }, w := { Work.fresh with uid := 1 } }

def inSlot (k : Nat) (r : Req) (e : Engine) : Engine := { e with rq := { e.rq with slots := [(k, r)] } }

def row5 : HRow := {
  row := 5, kind := 1, slot := 9, lead := 5, node := 0, paired := false, cls := 0, draft := 0, tc := 3, rid := 7, lc := false,
  fbk := false, rollout := false, logits := true, watch := 0, pos := 5, ntok := 1, aseg := 0xFFFF, expset := 0, btref := 9,
  sgrant := 0, mask := none, adj := none, chunk := none, d := desc7, gen := 2, win := [], key := 0, dl := noDl, ft := noDl,
  uid := 1, tokn := 0, parent := 0, lq := 0, expanded := false, issued := false }

/-- Index `i` as a candidate. -/
def candAt (i : Nat) : Cand := { idx := i, z := 0x3F800000, zo := 1, yq := 94548 }

def partAt (c : Cand) (n : Nat) : Part :=
  { Part.empty with count := n, accS := 2 ^ 100, accY := 3, cands := [c], maxZ := some c, pairs := [(c.idx, c.yq)] }

def streamOf (row pair : Nat) (p : Part) : Stream := { Stream.empty row pair with merged := p }

def heatOf (rows : List HRow) (ss : List Stream) : Heat := {
  num := 0x105, epoch := 1, stride := 40, plan := some 1, model := 2, learn := false, csr := false, nrows := 8, cost := 100,
  pver := 6, rows := rows, segs := [], tok := 1, vocab := 4, streams := ss, done := 0, wvers := [], markers := [], prevBlk := [],
  stepAt := [] }

def computing (h : Heat) (e : Engine) : Engine := { e with heat := { e.heat with cur := some h } }

/-- Put the CRC-32C of the whole at byte `k` of an image. -/
def crcAt (k : Nat) (b : List Byte) : List Byte := patch b k (le 4 (crc32c (patch b k (zeros 4))).toNat)

/-! ## WellFormed refuses -/

theorem test_wf_packet_63 : Instr.wf (.packetFetch 0 (zeros 63) false) = false := by decide
theorem test_wf_packet_64 : Instr.wf (.packetFetch 0 (zeros 64) false) = true := by decide
theorem test_wf_payload_short : Instr.wf (.stashWord 0 0 (zeros 64)) = false := by decide
theorem test_wf_message_empty : Instr.wf (.beacon []) = false := by decide
theorem test_wf_response_short : Instr.wf (.memoryResponse 0 0 false (zeros 63)) = false := by decide
theorem test_wf_undefined_cmd_4 : Instr.wf (.kettleUndefinedCmd 0 4 0 0) = false := by decide
theorem test_wf_undefined_cmd_5 : Instr.wf (.kettleUndefinedCmd 0 5 0 0) = true := by decide

/-! ## Values the spec states -/

/-- The admission of the spec's worked admission: 50 ms at CP_NSPS 0x03524000 are 58,807 strides. -/
theorem test_ns_to_str : nsToStr 50000000 0x03524000 = 58807 := by decide

def workedPacket : List Byte :=
  padTo 64 ([0x10, 0x0A, 0x04, 0x05, 0x34, 0x12, 0, 0] ++ zeros 8 ++ [0x10, 0x27] ++ zeros 6 ++ [0, 0, 0, 0x0C, 0x40, 0, 0, 0])

def workedState : State := run (fun e =>
  setReg (rCP_RING_CTRL 5) 3 (setReg (rCP_CRING_TAIL 5) 0x12A (setReg (rCP_CRING_HEAD 5) 0x129
    (setReg (rCP_CRING_BASE 5) 0x10009 (setReg (rCP_SRING_BASE 5) 0x20009 (modTen 5 (fun t => { t with st := .opened })
      { e with time := { e.time with num := 0x203004, valid := true, nsps := 0x03524000 } }))))))

/-- The worked admission, fetched at 0x203004, takes effect at 0x203005, with the tag and vector it shows. -/
theorem test_worked_admission :
    let h := hdrOf 5 workedPacket 0x129
    ((opRow 0x10).map (fun o => effStride 5 workedPacket o workedState.eng), h.tag, h.ridx, h.vec, h.irq, parseCmd workedPacket)
      = (some 0x203005, 0x1234, 0x129, 2, true, .admitReq 10000 0x400C000000) := by decide +kernel

/-- The worked row: LG of a mantissa of 1 + 769 × 2^-32 + 2^-48 and the LACC_S of both arrangements. -/
theorem test_worked_row_ls :
    L2Q (2 ^ 232 + 2 ^ 209 + 2 ^ 208 + 2 ^ 200 + 2 ^ 184) (-200) = 32 * 2 ^ 40 + 284015 := by decide +kernel

theorem test_worked_row_terms : (termS (32 * 2 ^ 24), termS (-16 * 2 ^ 24)) = (2 ^ 232, 2 ^ 184) := by decide

/-- LSE of the worked row is 0x41B17218, LOGP of its second index 0xC1851592. -/
theorem test_worked_row_logs :
    (F (32 * 2 ^ 40 + 284015), F (8 * 2 ^ 40 - (32 * 2 ^ 40 + 284015))) = (0x41B17218, 0xC1851592) := by decide

theorem test_worked_verify_logp : F (-2 ^ 40) = 0xBF317218 := by decide

/-- The spec's Brew example: injection 1, round 2 and the word rotation from the all-zero key and counter. -/
theorem test_brew_example :
    brewRound 21 19 (brewInject ⟨0, 0, 0, 0⟩ 1 ⟨0, 0, 0, 0⟩) =
      ⟨0x963DEBF3, 0xBA5718E2, 0xA49F3BE4, 0x26E5B5D7⟩ := by decide


/-! ## Witnesses: states and operands that meet the hypotheses of the statements -/

/-- StepRunsTheFrontCommand and ResetStateIsAsStated have no hypotheses; the idle step has the second clause's. -/
theorem wit_EveryStepAnswersAndTakesOneCommand :
    (run id).pending = [] ∧ (run id).eng.port.msgs = [] ∧ (run id).eng.time.tbRun = true := by
  repeat' apply And.intro
  all_goals decide +kernel

/-- ADDR 0x01 is the port's at reset, 0xFF everyone's; a mask that allows Q0 and Q1. -/
theorem wit_KettleCommandsAct :
    Hears (run id).eng 0x01 ∧ Hears (run id).eng 0xFF
      ∧ Hears (power (fun p => { p with eng := 2 })).eng 0x01 ∧ wakePossible 3 (power (fun p => { p with eng := 2 })).eng = true
      ∧ inReset (power (fun p => { p with eng := 2 })).eng = false
      ∧ inService (power (fun p => { p with eng := 2 })).eng = true ∧ Hears State.reset.eng 0x01
      ∧ inService State.reset.eng = true ∧ State.reset.eng.lead.pacer = none ∧ (0b0011#4).getLsbD 0 = true
      ∧ (0b0011#4 : U4) ≠ 0b0001#4 ∧ (0b0011#4 : U4) ≠ 0b0101#4 := by
  repeat' apply And.intro
  all_goals decide +kernel

theorem wit_KettleStatusAndReads :
    Hears (run id).eng 0x01 ∧ inReset (run id).eng = false ∧ (0x01 : U8) ≠ 0xFF#8 ∧ (3583 : BitVec 13).toNat < 3584
      ∧ 3584 ≤ (3584 : BitVec 13).toNat := by
  repeat' apply And.intro
  all_goals decide +kernel

theorem wit_KettleBadFramesOnlyReply :
    Hears (run id).eng 0x01 ∧ (0x33 : U8) ≠ frameCrc 0x01 0 0 ∧ (0x33 : U8) ≠ frameCrc 0x01 4 5 ∧ (7 : U32).toNat % 8 ≠ 0
      ∧ 2 ^ 20 ≤ (0x100000 : U32).toNat ∧ 16 ≤ (16 : U32).toNat := by
  repeat' apply And.intro
  all_goals decide +kernel

theorem wit_ResetsClearTheEngine : (run id).eng.pwr.eng ≠ 5 := by decide

theorem wit_ReleasesLeaveResetWhenPlaced :
    (let p := (power (fun p => { p with holdRstN := true })).eng.pwr;
      p.placementBad = false ∧ p.holdRstN = true ∧ p.holdBor = false ∧ p.holdTest = false)
    ∧ (let p := (power (fun p => { p with holdBor := true })).eng.pwr;
      p.placementBad = false ∧ p.holdRstN = false ∧ p.holdBor = true ∧ p.holdTest = false)
    ∧ (let p := (power (fun p => { p with holdTest := true })).eng.pwr;
      p.placementBad = false ∧ p.holdRstN = false ∧ p.holdBor = false ∧ p.holdTest = true ∧ p.testInstr = false)
    ∧ strapsOk 0xE4 = true ∧ strapsOk 0xE5 = false
    ∧ (let s (k : Option U16) : State := power (fun p => { p with
        eng := 4, lastKat := k, waking := [{ quad := none, origin := 6, stages := [3] }] });
      ∀ k, k = none ∨ k = some 7 → inReset (s k).eng = false
        ∧ (s k).eng.pwr.waking = [{ quad := none, origin := 6, stages := [3] }] ∧ (s k).eng.pwr.vwarnNow = false
        ∧ (s k).eng.pwr.retlostSticky = false ∧ (s k).eng.pwr.failing = [] ∧ (s k).eng.time.tbRun = true
        ∧ (s k).eng.pwr.lastKat = k) := by
  refine ⟨by decide, by decide, by decide, by decide, by decide, fun k hk => ?_⟩
  rcases hk with rfl | rfl <;> decide

/-- The engine a placement fault holds at reset, with a command in its queue. -/
def placed : State :=
  { eng := { Engine.fresh with pwr := { Engine.fresh.pwr with placementBad := true } }, pending := [.boundary, .beaconInterval] }

theorem wit_PlacementFaultHoldsTheEngineInReset : HeldByPlacement placed ∧ ∃ t, step placed = .next t := by
  refine ⟨⟨by decide, ?_, by decide, ?_⟩, _, rfl⟩
  · repeat' apply And.intro
    all_goals decide +kernel
  · intro c hc
    simp only [placed, List.mem_cons, List.not_mem_nil, or_false] at hc
    rcases hc with rfl | rfl <;> simp

theorem wit_SuppliesClocksAndRetention :
    (inReset (run id).eng = false ∧ (run id).eng.pwr.vwAgain = false ∧ (run id).eng.pwr.vwarnNow = false)
    ∧ (let s := run (fun e => { e with pwr := { e.pwr with vwarnNow := true, vwStart := 5 }, time := { e.time with stamp := 10005 } });
      s.eng.pwr.vwarnNow = true ∧ s.eng.pwr.vwAgain = false ∧ 10000 ≤ (s.eng.time.stamp - s.eng.pwr.vwStart).toNat)
    ∧ (inService (run id).eng = true ∧ (run id).eng.time.tbRun = true)
    ∧ (let s := run (fun e => { e with time := { e.time with tbRun := false, lockLost := true } });
      inService s.eng = true ∧ s.eng.time.tbRun = false ∧ s.eng.time.lockLost = true)
    ∧ (run id).eng.pwr.holdTest = false ∧ (power (fun p => { p with holdTest := true })).eng.pwr.holdTest = true := by
  repeat' apply And.intro
  all_goals decide +kernel

theorem wit_WakesStartAndRunTheirStages :
    (∀ st, st ∈ [1, 2, 3, 4] → Resting (power (fun p => { p with eng := st })).eng st
      ∧ inReset (power (fun p => { p with eng := st })).eng = false)
    ∧ (let s := power (fun p => { p with eng := 2, waking := [{ quad := none, origin := 2, stages := [3] }] });
      inReset s.eng = false ∧ s.eng.pwr.waking = { quad := none, origin := 2, stages := [3] } :: [] ∧ s.eng.pwr.vwarnNow = false
        ∧ s.eng.pwr.retlostSticky = false)
    ∧ (let s := power (fun p => { p with eng := 3, waking := [{ quad := none, origin := 3, stages := [1, 3] }] });
      inReset s.eng = false ∧ s.eng.pwr.waking = { quad := none, origin := 3, stages := [1, 3] } :: []) := by
  refine ⟨?_, ?_, ?_⟩
  · intro st h
    simp only [List.mem_cons, List.not_mem_nil, or_false] at h
    rcases h with rfl | rfl | rfl | rfl
    all_goals repeat' apply And.intro
    all_goals decide +kernel
  all_goals repeat' apply And.intro
  all_goals decide +kernel

theorem wit_PowerStatePacketsStartTransitions :
    (let s := run id;
      Free s ∧ s.eng.pwr.stopping = [] ∧ s.eng.pwr.entry = [] ∧ s.eng.pwr.waking = [] ∧ unitState s.eng 4 = 0
        ∧ s.eng.pwr.quads = [] ∧ regB s.eng rHEAT_CTRL 0 = false ∧ heatBusy s.eng = false ∧ s.eng.rq.slots = []
        ∧ s.eng.rq.parked = [] ∧ s.eng.learn.owner = none ∧ ∀ l < 64, (laneOf s.eng l).st = .free)
    ∧ (let s := power (fun p => { p with eng := 1 });
      Free s ∧ s.eng.pwr.quads = [] ∧ s.eng.pwr.eng = 1 ∧ unitState s.eng 4 ≤ 1)
    ∧ (let s := run (fun e => { e with pwr := { e.pwr with quads := [(1, 1), (3, 2)] }, flt := { e.flt with fault := true } });
      Free s ∧ inHold s.eng = true ∧ unitState s.eng (unitOf (named 1 1)) = 1 ∧ 2 ≤ unitState s.eng (unitOf (named 1 3))
        ∧ unitState s.eng (unitOf (named 1 3)) ≠ 5 ∧ unitState s.eng (unitOf (named 1 2)) = 0) := by
  refine ⟨?_, ?_, ?_⟩
  all_goals repeat' apply And.intro
  all_goals decide +kernel

theorem wit_StopAndEntryStepsRun :
    (let x : Stopping := { quad := none, h := some hdr, wakeSeen := false };
      let s := power (fun p => { p with stopping := [x] });
      inService s.eng = true ∧ s.eng.pwr.stopping = x :: [] ∧ heatBusy s.eng = false)
    ∧ (let s := run (computing { heatOf [] [] with plan := none }); heatBusy s.eng = true ∧ curEmpty s.eng = true)
    ∧ tileActive ⟨0, .glb .cp⟩ = true
    ∧ (∀ seen, seen ∈ [true, false] → ∀ t, t ∈ [2, 3, 4, 5] →
      let x : Entry := { quad := none, h := some hdr, target := t, origin := 0, step := 0, wakeSeen := seen };
      inService (power (fun p => { p with entry := [x] })).eng = true
        ∧ (power (fun p => { p with entry := [x] })).eng.pwr.entry = x :: [] ∧ x.quad = none ∧ x.step = 0) := by
  refine ⟨?_, ?_, ?_, fun b hb t ht => ⟨rfl, rfl, rfl, rfl⟩⟩
  all_goals repeat' apply And.intro
  all_goals decide +kernel

theorem wit_SteepImageLoadsAndVerifies :
    (let s := power (fun p => { p with eng := 2 });
      PortOpen s ∧ Resting s.eng 2 ∧ (0x80000001 : U32).getLsbD 31 = true)
    ∧ (let s := power (fun p => { p with eng := 2, steep := 1, steepLen := 1, steepReads := 3 });
      PortOpen s ∧ inService s.eng = true ∧ s.eng.pwr.steepReads ≠ 0)
    ∧ (let s := power (fun p => { p with eng := 2, steep := 1, steepLen := 1 });
      PortOpen s ∧ inService s.eng = true ∧ s.eng.pwr.steep = 1 ∧ s.eng.pwr.steepReads = 0 ∧ s.eng.pwr.steepMatch = false) := by
  refine ⟨?_, ?_, ?_⟩
  all_goals repeat' apply And.intro
  all_goals decide +kernel

/-- One register of each clause: the first 32-bit one, the first 64-bit one, and one of the last tenant's page. -/
theorem wit_RegisterWriteStoresWritableFields :
    PortOpen (run id)
    ∧ (match infoAt rKET_CTRL with
      | some r => rKET_CTRL < 0x1000 ∧ rKET_CTRL % 4 = 0 ∧ writable r true ≠ 0 ∧ rKET_CTRL ∉ actsOnWrite ∧ r.wide = false
      | none => False)
    ∧ (match infoAt rRQT_SPILL_BASE with
      | some r => rRQT_SPILL_BASE % 8 = 0 ∧ writable r true ≠ 0 ∧ rRQT_SPILL_BASE ∉ actsOnWrite ∧ r.wide = true
      | none => False)
    ∧ (match infoAt (rCP_CRING_HEAD 255) with
      | some r => 0x100000 ≤ rCP_CRING_HEAD 255 ∧ r.wide = false ∧ rCP_CRING_HEAD 255 % 0x1000 ∉ [0x8, 0x1C, 0x20, 0x1C0]
      | none => False) := by
  repeat' apply And.intro
  all_goals decide +kernel

theorem wit_RegisterReadsAndBadAccesses :
    PortOpen (run id)
    ∧ (match infoAt 0 with
      | some r => r.wide = false ∧ r.rc = 0 ∧ tget? privValues 0 = none
      | none => False)
    ∧ tget? (run id).eng.regs 0 = none
    ∧ (match infoAt 0x484 with
      | some r => r.wide = false ∧ r.rc ≠ 0 ∧ tget? privValues 0x484 = none
      | none => False)
    ∧ (let s := run (fun e => { e with hiLatch := [(rCP_SPLIT, 7)] });
      PortOpen s ∧ tget? s.eng.hiLatch rCP_SPLIT = some 7)
    ∧ (0x1FFFFE : Offset).toNat % 4 ≠ 0 ∧ (0x1FFFFC : Offset).toNat % 8 ≠ 0 ∧ (0xFFF8 : Offset).toNat % 8 = 0
    ∧ (0xFFF8 : Offset).toNat < 0x10000 := by
  repeat' apply And.intro
  all_goals decide +kernel

/-- A ring of 64 with HEAD 5 and TAIL 9: a doorbell of 69 fills it, 70 is too far, 8 is backwards. -/
theorem wit_DoorbellMovesTheTail :
    let s := run (fun e => rings3 (open3 id e))
    let head : U32 := (reg s.eng (rCP_CRING_HEAD 3)).setWidth 32
    let old : U32 := (reg s.eng (rCP_CRING_TAIL 3)).setWidth 32
    let n := 2 ^ regN s.eng (rCP_CRING_BASE 3) 4 0
    PortOpen s ∧ ((69 : U32) - head).toNat ≤ n ∧ (old - head).toNat ≤ ((69 : U32) - head).toNat
      ∧ n < ((70 : U32) - head).toNat ∧ ((8 : U32) - head).toNat < (old - head).toNat := by
  intro s head old n
  repeat' apply And.intro
  all_goals decide +kernel

theorem wit_RingsStartDrainAndInterrupt :
    (let s := run (fun e => setReg (rCP_RING_CTRL 3) 0 (rings3 (open3 id e)));
      PortOpen s ∧ reg s.eng (rCP_RING_CTRL 3) = 0 ∧ isOpen s.eng 3 = true
        ∧ (ringLogOk (regN s.eng (rCP_CRING_BASE 3) 4 0) && ringLogOk (regN s.eng (rCP_SRING_BASE 3) 4 0)) = true)
    ∧ (PortOpen (run id) ∧ reg (run id).eng (rCP_RING_CTRL 255) = 0 ∧ isOpen (run id).eng 255 = false)
    ∧ (∀ x, x ∈ [VecId.pv 31, VecId.tv 255 7] →
      let s := run (setReg (vecCtrl x) 2);
      PortOpen s ∧ s.eng.port.msgs.length < 256 ∧ bit (reg s.eng (vecCtrl x)) 1 = true
        ∧ (reg s.eng (vecCtrl x)).toNat < 2 ^ 32) := by
  refine ⟨?_, ?_, ?_⟩
  · repeat' apply And.intro
    all_goals decide +kernel
  · repeat' apply And.intro
    all_goals decide +kernel
  · intro x hx
    simp only [List.mem_cons, List.not_mem_nil, or_false] at hx
    rcases hx with rfl | rfl
    all_goals repeat' apply And.intro
    all_goals decide +kernel

theorem wit_WritesThatAct :
    (let s := run id;
      PortOpen s ∧ grantOn s.eng = false ∧ xsetOn s.eng = false ∧ regB s.eng rIDX_CTRL 31 = false
        ∧ (reg s.eng rIDX_CTRL).toNat < 32 ∧ quiet s.eng = true ∧ movesOut s.eng = false)
    ∧ (let s := run (setReg rHEAT_CTRL 1);
      PortOpen s ∧ regB s.eng rIDX_CTRL 31 = false ∧ quiet s.eng = false) := by
  refine ⟨?_, ?_⟩
  all_goals repeat' apply And.intro
  all_goals decide +kernel

theorem wit_RelayBatonQueueAndManifestWrites :
    (PortOpen (run id) ∧ bit (reg (run id).eng rCP_RELAY_CFG) 31 = false)
    ∧ (let s := run (setReg rCP_RELAY_CFG 0x80000003);
      PortOpen s ∧ bit (reg s.eng rCP_RELAY_CFG) 31 = true)
    ∧ (let s := run (fun e => { e with kv := { e.kv with orders := [(7, {
          op := 1, purpose := .moveNode 3 false, model := 0, src := 0, dst := 0, baton := 0, peer := 0, blk := 0, tc := 0, rid := 0 })] } });
      PortOpen s ∧ ((tget? s.eng.kv.orders 7).isSome && !s.eng.kv.ordWait.contains 7
        && !s.eng.sched.ext.any (fun x => match x.2 with
          | .order n _ => n == 7
          | _ => false)) = true)
    ∧ (tget? (run id).eng.kv.orders 7).isSome = false
    ∧ (let s := run (setMp 2 { queue := [{ record := true, som := false, bytes := [1] }], crd := 0, sent := [] });
      Free s ∧ (mpOf s.eng 2).crd = 0 ∧ bufOf s.eng 2 = []) := by
  refine ⟨?_, ?_, ?_, ?_, ?_⟩
  all_goals repeat' apply And.intro
  all_goals decide +kernel

theorem wit_NopWritesItsReply :
    (let s := run (fun e => rings3 (open3 id e));
      Free s ∧ Quiet s.eng ∧ (ten s.eng 3).ring.waiting = [] ∧ (ten s.eng 3).ring.lostEv = 0
        ∧ (ten s.eng 3).ring.accepted.length < 256 ∧ srSpace s.eng 3 = true)
    ∧ (let s := run (open3 id);
      Free s ∧ Quiet s.eng ∧ (ten s.eng 3).ring.waiting = [] ∧ srSpace s.eng 3 = false) := by
  refine ⟨?_, ?_⟩
  all_goals repeat' apply And.intro
  all_goals decide +kernel

theorem wit_PacketsOfAbsentContextsAreRefused :
    Free (run id) ∧ (ten (run id).eng hdr.target.toNat).st = .free
      ∧ Free (run (open3 (fun t => { t with st := .torn })))
      ∧ (ten (run (open3 (fun t => { t with st := .torn }))).eng hdr.target.toNat).st = .torn := by
  repeat' apply And.intro
  all_goals decide +kernel

/-- An engine in a photo-finish capture with seven markers, and with eight. -/
def capturing (n : Nat) : State := run (fun e => { e with cap := { e.cap with
  busy := true, markers := ((List.range n).map (fun i => (BitVec.ofNat 2 (i / 2), i % 2 == 0))) } })

theorem wit_CapturesHoldAndFinish :
    (Free (run id) ∧ (run id).eng.cap.asked = none ∧ (∀ q < 4, unitState (run id).eng q < 2) ∧ (run id).eng.pwr.owed = []
      ∧ (run id).eng.lanes.reclaims = [] ∧ inHold (run id).eng = false)
    ∧ (let s := run (fun e => { e with flt := { e.flt with fault := true } });
      Free s ∧ s.eng.cap.asked = none ∧ inHold s.eng = true)
    ∧ (inService (capturing 7).eng = true ∧ (capturing 7).eng.cap.busy = true ∧ (3, false) ∉ (capturing 7).eng.cap.markers
      ∧ (3, true) ∈ (capturing 7).eng.cap.markers ∧ (capturing 7).eng.cap.markers.length ≠ 8)
    ∧ ((capturing 8).eng.cap.markers.length = 8 ∧ (capturing 8).eng.cap.held = [] ∧ (capturing 8).eng.sched.agenda = []
      ∧ (capturing 8).eng.sched.recs = [] ∧ (capturing 8).eng.sched.brk = 0) := by
  refine ⟨?_, ?_, ?_, ?_⟩
  all_goals repeat' apply And.intro
  all_goals decide +kernel

theorem wit_ParametersAndStreamsAreSet :
    (let s := run (open3 id);
      Free s ∧ isOpen s.eng 3 = true ∧ reqCount s.eng 3 = 0 ∧ openStreams s.eng 3 = [] ∧ (ten s.eng 3).learn.ls ≠ .opened
        ∧ (ten s.eng 3).learn.ls ≠ .granted ∧ firstFree (tkeys (ten s.eng 3).streams) 1 16 = some 1)
    ∧ (let s := run (fun e => inSlot 9 req7 (open3 id e));
      Free s ∧ findSlot s.eng 3 7 = some (9, req7) ∧ terminal req7.e.st = false ∧ anyReq s.eng 3 7 = some req7)
    ∧ (let st : Strm := { cls := 4, rid := 6, salt := 0, base := 1, clearing := false };
      let s := run (open3 (fun t => { t with streams := [(15, st)] }));
      Free s ∧ (15, st) ∈ openStreams s.eng 3 ∧ 0x00100000 ≤ (0x00100000 : U32).toNat) := by
  refine ⟨?_, ?_, ?_⟩
  all_goals repeat' apply And.intro
  all_goals decide +kernel

theorem wit_TenantsOpenChangeAndClose :
    (let s := run (fun e => wr 0x4000 [4] e);
      Free s ∧ Readable64 s.eng 0x4000 ∧ (ten s.eng 3).st = .free)
    ∧ (let s := run (fun e => wr 0x4000 [4] (open3 id e));
      Readable64 s.eng 0x4000 ∧ isOpen s.eng 3 = true ∧ hdr.target ≠ 0)
    ∧ (Free (run (open3 id)) ∧ (ten (run (open3 id)).eng 3).st = .opened ∧ Rising (run (open3 id)).eng.rq.slots)
    ∧ (ten (run (open3 (fun t => { t with st := .torn }))).eng 3).st = .torn := by
  refine ⟨?_, ?_, ?_, ?_⟩
  all_goals repeat' apply And.intro
  all_goals first | decide +kernel | exact List.Pairwise.nil

theorem wit_RequestsChangeState :
    (∀ st, st ∈ [RState.prefilling, .running, .paused, .admitted] →
      let r := { req7 with e := { req7.e with st := st }, w := { req7.w with pauseDue := some (5, 1) } };
      let s := run (fun e => inSlot 9 r (open3 id e));
      Free s ∧ isOpen s.eng 3 = true ∧ findSlot s.eng 3 7 = some (9, r) ∧ terminal r.e.st = false ∧ r.e.st ≠ .handedOff
        ∧ r.e.gen < r.d.maxTokens ∧ r.w.pauseDue ≠ none)
    ∧ (let s := run (fun e => inSlot 9 req7 (open3 id { e with relay := { e.relay with peers := [(0, ⟨9, 4, 1, 2, 3, 4, 50, none, 6⟩)] } }));
      Free s ∧ findSlot s.eng 3 7 = some (9, req7) ∧ req7.e.st = .running ∧ (peerAt s.eng 9).isSome = true
        ∧ peerAt s.eng 10 = none) := by
  refine ⟨?_, ?_⟩
  · intro st h
    simp only [List.mem_cons, List.not_mem_nil, or_false] at h
    rcases h with rfl | rfl | rfl | rfl
    all_goals repeat' apply And.intro
    all_goals decide +kernel
  · repeat' apply And.intro
    all_goals decide +kernel

/-- A readable descriptor of RID 7 for model 2 at 0x4000, and a tenant with four slots. -/
def admitting : State := run (fun e =>
  { wr 0x4000 ((({ desc7 with model := 2, promptAddr := 64, adapter := 0xFFFF, budgetNs := 9000 } : Desc).bytes 0))
      (open3 (fun t => { t with qos := { t.qos with slotQuota := 4 } }) e) with models := [(2, parseModel [])] })

theorem wit_AdmitEntersTheRequestInItsSlot :
    let e := admitting.eng
    Free admitting ∧ (ten e 3).st = .opened ∧ badRange e 0x4000 128 = false ∧ descOk (rd e 0x4000 128) 7 = true
      ∧ ridInUse e 3 7 = false ∧ descPresent e 3 (parseDesc (rd e 0x4000 128)) = true ∧ e.pol = none
      ∧ assignSlot e 3 = some 49152 ∧ tget? e.rq.slots 49152 = none ∧ regB e rIDX_CTRL 31 = false := by
  intro e
  repeat' apply And.intro
  all_goals decide +kernel

theorem wit_RegionPublishNamesTheRegion :
    let s := run (fun e => open3 id { e with aslots := [(0, {
      retired := false, resident := true, tc := 3, model := 2, adapter := 5, version := 6, rank := 1, table := 0 })] })
    Free s ∧ isOpen s.eng 3 = true ∧ badRange s.eng 0x400 64 = false ∧ (regionsOf s.eng 3).length < 256
      ∧ (tget? s.eng.aslots 0).map (·.tc) = some 3 := by
  intro s
  repeat' apply And.intro
  all_goals decide +kernel

/-- One stage, two table words. -/
def policyImage : List Byte :=
  crcAt 12 (le 4 0x7A504F4C ++ [4, 7, 1, 0] ++ le 4 136 ++ zeros 4 ++ le 4 128 ++ le 4 8 ++ zeros 40 ++ zeros 64 ++ le 4 5 ++ le 4 6)

/-- One plan of one DECODE class of 8 rows. -/
def planImage : List Byte :=
  crcAt 12 (le 4 0x7A485054 ++ [4, 0] ++ le 2 1 ++ [2, 0, 0, 0] ++ zeros 52
    ++ padTo 1024 (le 2 0 ++ [1, 0] ++ le 2 8 ++ zeros 2 ++ le 4 100 ++ zeros 52
      ++ ([1, 0] ++ le 2 8 ++ le 2 0 ++ le 2 0 ++ le 4 1000 ++ zeros 20)))

theorem wit_policy_image : PolicyImage (run (wr 0x4000 policyImage)).eng 0x4000 136 := by
  have hl : policyImage.length = 136 := by decide +kernel
  have hr : rd (run (wr 0x4000 policyImage)).eng 0x4000 136 = policyImage := hl ▸ Laws.rd_wr 0x4000 policyImage (run id).eng rfl
  unfold PolicyImage
  simp only [hr]
  repeat' apply And.intro
  all_goals first | exact Laws.crcOk_patch _ _ (by decide +kernel) | decide +kernel

theorem wit_plan_image : PlanImage (run (wr 0x4000 planImage)).eng 0x4000 2 1 := by
  have hl : planImage.length = 64 + 1024 * 1 := by decide +kernel
  have hr : rd (run (wr 0x4000 planImage)).eng 0x4000 (64 + 1024 * 1) = planImage :=
    hl ▸ Laws.rd_wr 0x4000 planImage (run id).eng rfl
  unfold PlanImage
  simp only [hr]
  repeat' apply And.intro
  all_goals first | exact Laws.crcOk_patch _ _ (by decide +kernel) | decide +kernel

theorem wit_PolicyAndPlanImagesAreLoaded :
    Free (run (wr 0x4000 policyImage))
    ∧ (let s := run (fun e => wr 0x4000 planImage { e with models := [(2, parseModel [])] });
      Free s ∧ (tget? s.eng.models 2).map (·.plans) = some [] ∧ s.eng.plans.resv = [] ∧ (storeFree s.eng 1).length = 1) := by
  refine ⟨?_, ?_⟩
  all_goals repeat' apply And.intro
  all_goals decide +kernel

/-- A readable descriptor of model 5, without a pacer. -/
def modelImage : List Byte :=
  crcAt 40 (le 4 0x7A4D444C ++ [4, 0, 0xFF, 0] ++ le 4 1000 ++ zeros 8 ++ le 4 1 ++ le 8 4096 ++ le 8 1 ++ zeros 24)

/-- Images that the checks refuse: unreadable, of another VERSION, and of VERSION 4 with no right CRC. -/
theorem wit_policy_and_plan_refusals :
    (let s := run (fun e => { e with bad := [0x4000] });
      Free s ∧ badRange s.eng 0x4000 136 = true ∧ badRange s.eng 0x4000 64 = true ∧ s.eng.plans.resv = [])
    ∧ (let s := run (wr 0x4000 (zeros 4 ++ [4]));
      Free s ∧ badRange s.eng 0x4000 64 = false ∧ byteAt (rd s.eng 0x4000 64) 4 = 4 ∧ s.eng.plans.resv = []
        ∧ crcOk (rd s.eng 0x4000 64) 12 = false)
    ∧ ¬ PolicyImage (run (wr 0x4000 (zeros 4 ++ [4]))).eng 0x4000 64 ∧ byteAt (rd (run id).eng 0x4000 64) 4 ≠ 4 := by
  refine ⟨?_, ?_, fun h => absurd h.2.2.2.1 (by decide +kernel), by decide +kernel⟩
  all_goals repeat' apply And.intro
  all_goals decide +kernel

/-- Two models, one of adapters and one of experts, one adapter slot and one expert set. -/
def varied : State := run (fun e => open3 id { wr 0x4000 modelImage e with
  models := [(2, { parseModel [] with variant := 1 }), (4, { parseModel [] with variant := 2, nset := 9 })],
  aslots := [(0, { retired := false, resident := true, tc := 3, model := 2, adapter := 5, version := 6, rank := 1, table := 0 })],
  xsets := [(xsetKey 4 1, { owner := none, addr := 0 })] })

theorem wit_ModelsAdaptersAndExpertSets :
    let e := varied.eng
    Free varied ∧ badRange e 0x4000 64 = false ∧ byteAt (rd e 0x4000 64) 4 = 4 ∧ modelOk (rd e 0x4000 64) 5 = true
      ∧ tget? e.models 5 = none ∧ modelUsed e 2 = false ∧ (tget? e.models 2).isSome = true ∧ isOpen e 3 = true
      ∧ (tget? e.models 2).map (·.variant) = some 1
      ∧ (∀ a ∈ adapterSlots e 2 5, a.2.tc = 3 ∧ a.2.version < 7) ∧ (adapterSlots e 2 5).length < 4
      ∧ firstFree (tkeys e.aslots) 0 4096 = some 1 ∧ versionSlot e 3 2 5 6 = some 0
      ∧ (tget? e.models 4).map (fun m => (m.variant, m.nset)) = some (2, 9)
      ∧ (tget? e.xsets (xsetKey 4 1)).map (·.owner) = some none := by
  intro e
  repeat' apply And.intro
  all_goals decide +kernel

theorem wit_AdapterRetireOfANamedVersion :
    let held (x : Nat × ASlot) (ver : Nat) : Bool := x.2.tc == 3 && x.2.model == 2 && x.2.adapter == 5 && x.2.version == ver
    Free varied ∧ isOpen varied.eng 3 = true ∧ (∃ x ∈ varied.eng.aslots, held x 6 = true)
      ∧ ∀ x ∈ varied.eng.aslots, held x 7 = false := by
  intro held
  repeat' apply And.intro
  all_goals decide +kernel

/-- Lanes 1, 5 and 63 are the tenant's, in state `st`. -/
def lanesIn (st : LnState) : State :=
  run (fun e => [1, 5, 63].foldl (fun e l => setLane l { laneOf e l with st := st, tc := 3 } e) (open3 id e))

theorem wit_LanesAreGrantedAndReclaimed :
    (let s := lanesIn .free;
      Free s ∧ (ten s.eng 3).st = .opened
        ∧ ∀ l < 64, (0x8000000000000022 : U64).getLsbD l = true → (laneOf s.eng l).st = .free)
    ∧ (let s := lanesIn .granted;
      Free s ∧ isOpen s.eng 3 = true ∧ (0x8000000000000022 : U64) ≠ 0
        ∧ ∀ l < 64, (0x8000000000000022 : U64).getLsbD l = true → (laneOf s.eng l).st = .granted ∧ (laneOf s.eng l).tc = 3) := by
  refine ⟨?_, ?_⟩
  all_goals repeat' apply And.intro
  all_goals decide +kernel

/-- The image of a context of no request. -/
def contextImage : List Byte := crcAt 12 (imageRaw (run (open3 id)).eng 3 [])

def saved : State := run (fun e => wr 0x8000 contextImage (open3 id e))

theorem wit_ContextsAreSavedAndRestored :
    (Free (run (open3 id)) ∧ isOpen (run (open3 id)).eng 3 = true
      ∧ 384 + 256 * (savedReqs (run (open3 id)).eng 3).length ≤ (384 : U32).toNat)
    ∧ (let e := saved.eng;
      let img := rd e 0x8000 384;
      Free saved ∧ (ten e 3).st = .opened ∧ badRange e 0x8000 384 = false ∧ byteAt img 4 = 4
        ∧ imageOk img 384 = true ∧ fieldAt img 24 4 = 0 ∧ reqCount e 3 = 0 ∧ openStreams e 3 = [] ∧ turnOf e 3 = .gen) := by
  have hl : contextImage.length = 384 := by decide +kernel
  have hr : rd saved.eng 0x8000 384 = contextImage := hl ▸ Laws.rd_wr 0x8000 contextImage (run (open3 id)).eng rfl
  have hc : crcOk contextImage 12 = true := Laws.crcOk_patch _ _ (by decide +kernel)
  have hn : fieldAt contextImage 24 4 = 0 := by decide +kernel
  refine ⟨?_, ?_⟩
  · repeat' apply And.intro
    all_goals decide +kernel
  · simp only [hr]
    refine ⟨⟨by decide +kernel, by decide +kernel⟩, by decide +kernel, by decide +kernel, by decide +kernel, ?_, hn,
      by decide +kernel, by decide +kernel, by decide +kernel⟩
    have h384 : contextImage.take 384 = contextImage := List.take_of_length_le (by omega)
    unfold imageOk
    simp only [hn, Nat.mul_zero, Nat.add_zero, List.range_zero, List.foldl_nil, h384, hc]
    decide +kernel

theorem wit_ResetScopePacketsReset :
    (let s := run (fun e => { e with flt := { e.flt with fault := true } });
      Free s ∧ inHold s.eng = true ∧ (3 : Quad) ≠ 0 ∧ s.eng.lead.resetQ = 0)
    ∧ (Free (run (open3 id)) ∧ (3 : U8) ≠ 0 ∧ isOpen (run (open3 id)).eng 3 = true)
    ∧ (Free (lanesIn .saving) ∧ (laneOf (lanesIn .saving).eng 63).st ≠ .free) := by
  refine ⟨?_, ?_, ?_⟩
  all_goals repeat' apply And.intro
  all_goals decide +kernel

theorem wit_CounterLatchWritesItsRecord :
    (let s := run (fun e => setReg rDBG_LATCH_BASE 0x20008 (setReg (rDBG_TLATCH 3) 0x30008 (open3 id e)));
      Free s ∧ isOpen s.eng 3 = true ∧ (reg s.eng rDBG_LATCH_BASE).toNat / 4096 ≠ 0
        ∧ (reg s.eng (rDBG_TLATCH 3)).toNat / 4096 ≠ 0)
    ∧ (0x100 : U16).toNat = 0x100 ∧ (3 : U16).toNat < 4 := by
  repeat' apply And.intro
  all_goals decide +kernel

/-- TC3's learning state, with a rollout store. -/
def learning (f : TLearn → TLearn) (g : LearnSt → LearnSt) : State :=
  run (fun e => setReg (rTRN_RO_BASE 3) 0x5000A (open3 (fun t => { t with learn := f t.learn }) { e with learn := g e.learn }))

theorem wit_TurnsOfTheLearner :
    (let s := learning (fun l => { l with tokens := 5 }) id;
      Free s ∧ isOpen s.eng 3 = true ∧ (ten s.eng 3).learn.ls = .gen ∧ s.eng.learn.owner = none
        ∧ (ten s.eng 3).learn.tokens ≠ 0 ∧ roBase s.eng 3 ≠ 0)
    ∧ (let s := learning (fun l => { l with ls := .idle }) (fun l => { l with owner := some 3 });
      Free s ∧ isOpen s.eng 3 = true ∧ (ten s.eng 3).learn.ls = .idle ∧ verAhead s.eng.pver 9 = false) := by
  refine ⟨?_, ?_⟩
  all_goals repeat' apply And.intro
  all_goals decide +kernel

/-- Window 7 of version 3, of one micro-batch with the record of entry 0. -/
def window7 : Win := {
  num := 7, model := 2, wver := 3, mbs := [{ entries := [0], invalid := false }], cur := 0, bwd := true, chunks := [], ordinal := 0,
  lastMb := none, cause := 0, ostr := 0, heats := 0, spill := 0, firstInv := none, xfail := 0,
  xmiss := 0 }

theorem wit_OptStepDoneEndsTheWindow :
    let s := learning (fun l => { l with ls := .granted }) (fun l => { l with owner := some 3, win := some window7 })
    Free s ∧ isOpen s.eng 3 = true ∧ (ten s.eng 3).learn.ls = .granted ∧ s.eng.learn.win = some window7
      ∧ verAhead 3 window7.wver = false ∧ verAhead 4 window7.wver = true := by
  intro s
  repeat' apply And.intro
  all_goals decide +kernel

theorem wit_StrideEventsRegisterOrAreTurnedAway :
    let s := run (fun e => { e with time := { e.time with valid := true, num := 63, stamp := 99, hclk := 9 } })
    Free s ∧ entryDeep s.eng = false ∧ s.eng.time.afterWake = false ∧ s.eng.time.valid = true ∧ s.eng.time.hclk + 6 < 16
      ∧ 16 ≤ s.eng.time.hclk + 7 ∧ ahead 63 s.eng.time.num = false ∧ (64 : Stride) = s.eng.time.num + 1 ∧ NothingDue s.eng
      ∧ inHold s.eng = false ∧ s.eng.pwr.eng < 2 := by
  intro s
  refine ⟨⟨by decide, by decide⟩, by decide, by decide, by decide, by decide, by decide, by decide, by decide, ?_, by decide,
    by decide⟩
  refine ⟨by decide, by decide, by decide, by decide, by decide, by decide, fun tc => rfl, by decide, by decide, by decide,
    by decide, by decide, by decide, by decide, by decide⟩

/-- The duty `d` and the window duty are due, at stride 64. -/
def due (d : Duty) (f : Engine → Engine) : State :=
  run (fun e => f { e with
    sched := { e.sched with agenda := [d, .windows], bndWait := true },
    time := { e.time with num := 64, stamp := 1000, strideStamp := 900000 } })

theorem wit_StrideDutiesAct :
    (let s := due .lease id;
      Strides s ∧ s.eng.sched.agenda = [.lease, .windows] ∧ s.eng.lead.pacer = some 0 ∧ eligible s.eng 0 = true)
    ∧ (let s := run (fun e => { e with sched := { e.sched with agenda := [.windows] } });
      Strides s ∧ regB s.eng rDBG_LATCH_BASE 5 = false ∧ regB s.eng rDBG_TRACE_CTRL 0 = false)
    ∧ (let s := due .nspsWindow (fun e => { e with time := { e.time with winStamp := some 800000 } });
      Strides s ∧ s.eng.sched.agenda = [.nspsWindow, .windows] ∧ s.eng.time.winStamp = some 800000
        ∧ s.eng.time.winBad = false ∧ 0x00100000 ≤ 16 * (s.eng.time.strideStamp - 800000).toNat
        ∧ 16 * (s.eng.time.strideStamp - 800000).toNat ≤ 0xFFFFFFFF)
    ∧ (let s (n : Stride) := run (fun e => { e with
        sched := { e.sched with ext := [(n, .nsps 77)] }, time := { e.time with num := 64 } });
      Strides (s 63) ∧ (s 63).eng.sched.ext = [(63, .nsps 77)] ∧ (63 : Stride) ≠ (s 63).eng.time.num
        ∧ ∀ x ∈ (s 64).eng.sched.ext, x.1 = (s 64).eng.time.num)
    ∧ (let s := run (fun e => { e with lead := { e.lead with renewWait := [1, 2, 3], epoch := 5 } });
      Free s ∧ s.eng.lead.pacer = some 0 ∧ 3 ∈ s.eng.lead.renewWait ∧ eligible s.eng 3 = true
        ∧ (heldEpoch s.eng 3).toNat ≤ s.eng.lead.epoch.toNat ∧ reach s.eng 3 0 = true ∧ ∀ x ∈ s.eng.lead.resetRun, x.1 ≠ 3)
    ∧ (let s := run (fun e => { e with lead := { e.lead with renewWait := [3], outOfQuorum := 8, held := [(3, 9)] } });
      3 ∈ s.eng.lead.renewWait ∧ eligible s.eng 3 = false ∧ s.eng.lead.epoch.toNat < (heldEpoch s.eng 3).toNat) := by
  refine ⟨?_, ?_, ?_, ?_, ?_, ?_⟩
  all_goals repeat' apply And.intro
  all_goals decide +kernel

/-- A request at the end of its hold in slot 3 and a running one in slot 9. -/
theorem wit_HoldsAndLifetimesEnd :
    (let done := { req7 with e := { req7.e with st := .finished }, w := { req7.w with holdEnd := some 64 } };
      let s := due .holds (fun e => { e with rq := { e.rq with slots := [(3, done), (9, req7)] } });
      Strides s ∧ s.eng.sched.agenda = [.holds, .windows] ∧ reqAt s.eng 3 = some done
        ∧ holdOver s.eng.time.num false done = true ∧ reqAt s.eng 9 = some req7
        ∧ holdOver s.eng.time.num false req7 = false ∧ (tkeys s.eng.rq.slots).Pairwise (· < ·))
    ∧ (let x : Node := {
        hash := 1, parent := none, fchild := none, nsib := none, loc := 2, moving := false, lost := false, id := 3, refs := 0,
        depth := 0, lastUse := 0, expiry := some 64, model := 2, dropOnMove := false };
      let s := due .ttl (fun e => { e with kv := { e.kv with nodes := [(4, x)] } });
      Strides s ∧ s.eng.sched.agenda = [.ttl, .windows] ∧ (4, x) ∈ s.eng.kv.nodes ∧ reached 64 s.eng.time.num = true) := by
  refine ⟨?_, ?_⟩
  all_goals repeat' apply And.intro
  all_goals decide +kernel

theorem wit_BoundariesIssueHeats :
    (let s := due .boundary (fun e => { e with pwr := { e.pwr with eng := 2 } });
      Strides s ∧ s.eng.sched.agenda = [.boundary, .windows] ∧ Duty.boundaryRest ∉ [Duty.windows] ∧ s.eng.rq.slots = []
        ∧ s.eng.rq.parked = [] ∧ 2 ≤ s.eng.pwr.eng)
    ∧ inHold (due .boundary (fun e => { e with flt := { e.flt with fault := true } })).eng = true
    ∧ ∀ f, f = id ∨ f = (fun e => { e with flt := { e.flt with fault := true } }) →
      let e := (due .boundary f).eng
      e.pwr.eng < 2 ∧ e.heat.cur = none ∧ e.cap.asked = none ∧ e.learn.owner = none ∧ e.xsets = []
        ∧ e.aslots = [] ∧ e.lanes.slow = false ∧ e.sched.held = false
        ∧ ∀ tc, (ten e tc).ring.accepted = [] ∧ (ten e tc).streams = [] ∧ (ten e tc).dl = { late := 0, fbk := 0, risk := 0 }
          ∧ ((ten e tc).st = .free ∨ (ten e tc).st = .opened) := by
  refine ⟨?_, by decide, fun f hf => ?_⟩
  · repeat' apply And.intro
    all_goals decide +kernel
  · rcases hf with rfl | rfl
    all_goals
      refine ⟨by decide, by decide, by decide, by decide, by decide, by decide, by decide, by decide,
        fun tc => ⟨rfl, rfl, rfl, ?_⟩⟩
      by_cases h : tc = 0
      · subst h; exact .inr rfl
      · exact .inl (by show (if tc = 0 then TState.opened else TState.free) = _; rw [if_neg h])

/-- TC3's rings at stride 62, four packets to fetch. -/
def fetching : State := run (fun e => rings3 (open3 id { e with time := { e.time with valid := true, num := 62 } }))

/-- A packet of each clause: NOP accepted, another VERSION, an opcode of no row, an opcode for TC0 alone. -/
theorem wit_PacketsAreFetchedAndPrepared :
    let pkt (l : List Byte) := padTo 64 l
    let e := setReg (rCP_CRING_HEAD 3) 6 (fetchCount 3 1 fetching.eng)
    Free fetching ∧ mayFetch fetching.eng 3 = true ∧ fetchStalled fetching.eng 3 = false
      ∧ (fetchTurn fetching.eng).1 = some 3 ∧ tagFree fetching.eng 3 = true ∧ planWaits fetching.eng 3 1 = false
      ∧ (pkt [1, 0, 4, 3]).length = 64 ∧ (opRow 1).isSome = true ∧ fetchStatus 3 (pkt [1, 0, 4, 3]) e = 0
      ∧ prepSpan e 3 (parseCmd (pkt [1, 0, 4, 3])) = none
      ∧ byteAt (pkt [1, 0, 5, 3]) 2 ≠ 4 ∧ opRow (byteAt (pkt [0x99, 0, 4, 3]) 0) = none
      ∧ (opRow 2).isSome = true ∧ fetchStatus 3 (pkt [2, 0, 4, 3]) e ≠ 0
      ∧ mayFetch (run id).eng 3 = false
      ∧ (let s : State := { fetching with eng := fetchCount 3 8 (setReg (rCP_RING_CTRL 4) 3 (setReg (rCP_CRING_TAIL 4) 9
          (setReg (rCP_CRING_BASE 4) 0x10006 (modTen 4 (fun t => { t with st := .opened }) fetching.eng)))) };
        mayFetch s.eng 3 = true ∧ fetchStalled s.eng 3 = false ∧ (fetchTurn s.eng).1 ≠ some 3) := by
  intro pkt e
  repeat' apply And.intro
  all_goals decide +kernel

/-- A command held past its effect stride with its reads done, and one that is not held. -/
theorem wit_preparation_complete :
    let a (late : Bool) : Acc := { h := hdr, cmd := .setStrideRate 0x200000, eff := 60, reads := 0, err := false, late := late }
    ∀ late, late ∈ [true, false] →
      let s := run (open3 (fun t => { t with ring := { t.ring with accepted := [a late] } }))
      Strides s ∧ accAt s.eng 3 0x12347 = some (a late) := by
  intro a late h
  simp only [List.mem_cons, List.not_mem_nil, or_false] at h
  rcases h with rfl | rfl
  all_goals repeat' apply And.intro
  all_goals decide +kernel

theorem wit_MemoryAnswersRetireTheirTags :
    let read : MemReq := { port := 1, write := false, addr := 64, who := .none }
    let write : MemReq := { port := 1, write := true, addr := 64, who := .status 3 5 }
    let s := run (fun e => (open3 (fun t => { t with ring := { t.ring with inflight := [{ idx := 5, seen := false, vec := none }] } })
      { e with port := { e.port with tags := [(263, read), (264, write), (265, { read with who := .late })] } }))
    Free s ∧ tget? s.eng.port.tags 0 = none ∧ tget? s.eng.port.tags 263 = some read ∧ tget? s.eng.port.tags 264 = some write
      ∧ tget? s.eng.port.tags 265 = some { read with who := .late }
      ∧ (ten s.eng 3).ring.inflight = [{ idx := 5, seen := false, vec := none }] := by
  intro read write s
  repeat' apply And.intro
  all_goals decide +kernel

/-- A learn heat with row 5 and no port done. -/
def draining : State := run (computing { heatOf [row5] [] with learn := true })

theorem wit_DrainWordsWaitForTheirStride :
    (Free draining ∧ DrainOpen draining.eng 1 ∧ (37 : BitVec 6).toNat % 4 = (1 : Quad).toNat)
    ∧ (let s := run (fun e => { e with port := { e.port with crd := [(1, 0)] } });
      Free s ∧ tget 128 s.eng.port.crd 1 = 0)
    ∧ draining.eng.heat.cur = some { heatOf [row5] [] with learn := true } ∧ (heatOf [row5] []).done ≠ 0xF
    ∧ ∀ i < 128, fieldAt [] (8 * i) 2 < 4096 := by
  refine ⟨?_, ?_, rfl, by decide, ?_⟩
  · repeat' apply And.intro
    all_goals decide +kernel
  · repeat' apply And.intro
    all_goals decide +kernel
  · intro i _
    simp [fieldAt, ofLe]

/-- Two indices from 1 on of row 5, fp32, of the heat computing and of another. -/
theorem wit_LogitsBlocksAccumulate :
    let h := heatOf [row5] []
    let s := run (computing h)
    let tag (h8 : Nat) : U64 := BitVec.ofNat 64 (2 ^ 60 + h8 * 2 ^ 46 + 5 * 2 ^ 32 + 2 ^ 12 + 2 * 2)
    let t := tag (heat8 h)
    Free s ∧ DrainOpen s.eng 1 ∧ s.eng.heat.cur = some h ∧ bits t 63 60 = 1 ∧ bits t 59 58 = 0 ∧ bits t 57 55 ≤ 4
      ∧ bit t 0 = false ∧ 1 ≤ bits t 11 1 ∧ bits t 11 1 ≤ nvMax (bits t 57 55) ∧ bits t 53 46 = heat8 h ∧ bits t 45 32 < h.nrows
      ∧ rowAt h (bits t 45 32) = some row5 ∧ row5.logits = true ∧ bits t 31 12 + bits t 11 1 ≤ h.vocab
      ∧ ((streamAt h 5 0).at 1).last = false ∧ h.done.getLsbD 1 = false ∧ ((streamAt h 5 0).at 1).part.count + bits t 11 1 ≤ h.vocab
      ∧ bit t 54 = false ∧ bits (tag (heat8 h + 1)) 53 46 ≠ heat8 h := by
  intro h s tag t
  repeat' apply And.intro
  all_goals decide +kernel

/-- Q1 not done, Q2 done, and Q2's partial of row 5 on its way. -/
theorem wit_StepDonePartialsAndMarkers :
    let fl : Flight := { src := 2, row := 5, pair := 0, node := 0, part := partAt (candAt 2) 4, sent := true }
    (let h := { heatOf [row5] [] with done := 4, markers := [(2, 2)] };
      let s := run (computing h);
      Free s ∧ s.eng.heat.cur = some h ∧ DrainOpen s.eng 1 ∧ h.done.getLsbD 1 = false ∧ h.done ||| 1#4 <<< 1 ≠ 0xF
        ∧ NoJudgement { h with markers := h.markers ++ [(1, 1)] } ∧ h.done.getLsbD 2 = true ∧ (2, 3) ∉ h.markers
        ∧ s.eng.heat.flights = [] ∧ bufOf s.eng 2 = [] ∧ reach s.eng 2 3 = true
        ∧ NoJudgement { h with markers := h.markers ++ [(2, 3)] } ∧ (2, 2) ∈ h.markers)
    ∧ reach (run (fun e => { e with lead := { e.lead with linkUp := 0 } })).eng 2 1 = false
    ∧ (let h := { heatOf [row5] [] with done := 4 };
      let s := run (fun e => let e := computing h e; { e with heat := { e.heat with flights := [fl] } });
      Free s ∧ s.eng.heat.flights = fl :: [] ∧ rowAt h 5 = some row5 ∧ reach s.eng 2 (5 % 4) = true
        ∧ (streamAt h 5 0).merged.count + fl.part.count ≤ h.vocab)
    ∧ (let h := heatOf [row5] [streamOf 5 0 (partAt (candAt 2) 1)];
      h.vocab < (streamAt h 5 0).merged.count + fl.part.count)
    ∧ roundOn (run id).eng row5 = none := by
  intro fl
  refine ⟨?_, ?_, ?_, ?_, ?_⟩
  all_goals repeat' apply And.intro
  all_goals decide +kernel

/-- Row 5 complete with index 2 as the one of largest z. -/
theorem wit_CompleteRowsIssueTheirToken :
    let c := candAt 2
    let h := heatOf [row5] [streamOf 5 0 (partAt c 4)]
    let s := run (fun e => inSlot 9 req7 (computing h e))
    let p := (streamAt h 5 0).merged
    Free s ∧ s.eng.heat.cur = some h ∧ rowAt h 5 = some row5 ∧ row5.row = 5 ∧ row5.kind = 1 ∧ NoJudgement h
      ∧ Plain s.eng 9 req7 row5 ∧ row5.d.greedy = true ∧ rowComplete h row5 = true ∧ p.accS ≠ 0 ∧ p.maxZ = some c
      ∧ p.clamp = false := by
  intro c h s p
  repeat' apply And.intro
  all_goals decide +kernel

/-- A chain item of rows 5 and 6: index 3 is the target's, the draft node is index 2. -/
theorem wit_VerifyItemsIssueTheirTokens :
    let c := candAt 3
    let p1 := partAt (candAt 2) 4
    let lq := match p1.pairs.find? (fun x => x.1 == 2) with
      | some x => min 0 (x.2 * 65536 - lsOf p1)
      | none => 0
    let r := { row5 with kind := 3, draft := 1, paired := true }
    let f := { row5 with row := 6, kind := 5, node := 1, tokn := 2, lq := lq }
    let h := heatOf [r, f] [streamOf 5 0 (partAt c 4), streamOf 5 1 p1, streamOf 6 0 (partAt c 4)]
    let s := run (fun e => inSlot 9 req7 (computing h e))
    let p := (streamAt h 5 0).merged
    Free s ∧ s.eng.heat.cur = some h ∧ h.rows = [r, f] ∧ f.row ≠ r.row ∧ r.lead = r.row ∧ f.lead = r.row ∧ r.kind = 3
      ∧ f.kind = 5 ∧ f.parent = r.node ∧ r.draft = 1 ∧ (∀ x < 4, allMarkers h x = false) ∧ Plain s.eng 9 req7 r
      ∧ r.d.greedy = true ∧ rowComplete h r = true ∧ rowComplete h f = true ∧ p.accS ≠ 0 ∧ (streamAt h 5 1).merged.accS ≠ 0
      ∧ p.maxZ = some c ∧ p.clamp = false ∧ p.cands = c :: [] ∧ f.tokn.toNat ≠ c.idx
      ∧ lqDiffers (streamAt h 5 1).merged f = false ∧ r.d.topk = 0 ∧ r.d.minp = 0 ∧ r.d.topp = 0
      ∧ p.count - p.excl ≤ candCap h.nrows := by
  intro c p1 lq r f h s p
  repeat' apply And.intro
  all_goals decide +kernel

theorem wit_DraftRoundsGrowTheDraft :
    let c := candAt 3
    let h := heatOf [row5] [streamOf 5 2 (partAt c 4)]
    let q := { req7 with
      d := { req7.d with specMax := 2 },
      w := { req7.w with draft := { Draft.empty with nodes := [⟨2, 0, 1, 0, false⟩], pkv := 3, round := some (1, 1), lead := 5 } } }
    let s := run (fun e => inSlot 9 q (computing h e))
    let p := (streamAt h 5 2).merged
    Free s ∧ s.eng.heat.cur = some h ∧ NoJudgement h ∧ reqAt s.eng 9 = some q ∧ reqByUid s.eng q.w.uid = some (some 9, q)
      ∧ row5.uid = q.w.uid ∧ row5.row = q.w.draft.lead ∧ row5.kind ≠ 0
      ∧ h.rows.find? (fun x => x.uid == q.w.uid && x.row == q.w.draft.lead && x.kind != 0) = some row5
      ∧ q.w.draft.round = some (1, 1) ∧ q.d.greedy = true ∧ nMax s.eng q.d = q.w.draft.nodes.length + 1 ∧ p.count = h.vocab
      ∧ p.accS ≠ 0 ∧ p.maxZ = some c := by
  intro c h q s p
  repeat' apply And.intro
  all_goals decide +kernel

theorem wit_WalksTakeEffect :
    let w : Walk := { eff := 3, n := 3, resume := false, due := true }
    let r := { req7 with e := { req7.e with st := .admitted, gen := 0 }, w := { req7.w with walk := some w, prefixHit := 9 } }
    let s := run (inSlot 9 r)
    Strides s ∧ s.eng.rq.slots = [(9, r)] ∧ r.w.walk = some w ∧ w.due = true ∧ walkReads s.eng 9 = false ∧ w.resume = false
      ∧ s.eng.kv.nodes = [] ∧ s.eng.kv.orders = [] ∧ s.eng.bad = [] ∧ r.e.st = .admitted ∧ r.w.table = []
      ∧ walkReads { s.eng with port := { s.eng.port with
          tags := [(512, { port := 2, write := false, addr := 64, who := .walk 9 })] } } 9 = true := by
  intro w r s
  repeat' apply And.intro
  all_goals decide +kernel

/-! ### Relay -/

/-- Engine 77 with the relay on and three peers; 9 and 10 share tray 4. -/
def relaying (f : Engine → Engine) : State := run (fun e =>
  f (setReg rCP_RELAY_CFG 0x80000000 (setReg rCP_RELAY_ID 77 { e with
    relay := { e.relay with
      peers := [(0, ⟨9, 4, 1, 2, 3, 4, 50, none, 6⟩), (1, ⟨10, 4, 1, 2, 3, 4, 2900000, none, 6⟩), (2, ⟨11, 5, 1, 2, 3, 4, 50, none, 6⟩)] },
    time := { e.time with stamp := 3000050, epoch := 6 } })))

/-- A message to engine 77. -/
def message (kind : Nat) (src : U32) (pl : List Byte) : List Byte := crcAt 28 (relayRaw kind pl.length src 77 1 5 6 0 ++ pl)

theorem message_crc (kind : Nat) (src : U32) (pl : List Byte) (n : Nat) (h : n = 32 + pl.length) :
    crcOk ((message kind src pl).take n) 28 = true := by
  have hl : (relayRaw kind pl.length src 77 1 5 6 0 ++ pl).length = 32 + pl.length := by
    simp [relayRaw, Laws.le_length]; omega
  rw [List.take_of_length_le]
  · exact Laws.crcOk_patch _ 28 (by omega)
  · simp only [message, crcAt, patch, List.length_append, List.length_take, List.length_drop, Laws.le_length, hl]; omega

def beacon4 : List Byte := [0x7A, 9, 4, 2, 1, 0, 0, 0] ++ le 4 4 ++ zeros 52

theorem wit_BeaconsAndDeparturesAreHeard :
    let e := (relaying id).eng
    let p : Peer := ⟨9, 4, 1, 2, 3, 4, 50, none, 6⟩
    inService e = true ∧ IsMsg e (message 1 9 beacon4) 1 9 beacon4 ∧ peerAt e 9 = some (0, p)
      ∧ p.epoch = epochOf (message 1 9 beacon4) ∧ BitVec.ofNat 32 (fieldAt beacon4 8 4) = (4 : U32)
      ∧ BitVec.ofNat 2 (byteAt beacon4 4) = (1 : BitVec 2) ∧ (tkeys e.relay.peers).Pairwise (· < ·)
      ∧ peerAt e 20 = none ∧ arriving e 20 = false ∧ (20 : U32) ≠ myId e
      ∧ e.relay.peers.length + arrivals e < 256 ∧ (peerAt e 9).isSome = true
      ∧ relayForm e [] = false ∧ relayOn (run id).eng = false ∧ flitsOf [] ≤ e.relay.crd := by
  intro e p
  simp only [IsMsg, relayOk, relayForm, Bool.and_eq_true]
  repeat' apply And.intro
  all_goals try with_reducible apply message_crc
  all_goals decide +kernel

/-- The other clauses: a DEPART, a BEACON of an unknown engine, a BEACON in a later epoch of its peer's, and the same of
another CVER and of more flits than the host's credits. -/
theorem wit_beacon_clauses :
    let e := (relaying id).eng
    let old : Engine := { e with relay := { e.relay with peers := [(0, ⟨9, 4, 1, 2, 3, 4, 50, none, 5⟩)] } }
    let cver := crcAt 28 (patch (relayRaw 1 64 20 77 1 5 6 0) 26 [3] ++ beacon4)
    IsMsg e (message 5 9 []) 5 9 [] ∧ IsMsg e (message 1 20 beacon4) 1 20 beacon4
      ∧ IsMsg old (message 1 9 beacon4) 1 9 beacon4 ∧ peerAt old 9 = some (0, ⟨9, 4, 1, 2, 3, 4, 50, none, 5⟩)
      ∧ (5 : U16) ≠ epochOf (message 1 9 beacon4)
      ∧ byteAt cver 26 ≠ 4 ∧ BitVec.ofNat 32 (fieldAt cver 4 4) = (20 : U32) ∧ byteAt cver 1 = 1 ∧ flitsOf cver ≤ e.relay.crd
      ∧ ({ e.relay with crd := 0 } : RelaySt).crd < flitsOf cver := by
  intro e old cver
  simp only [IsMsg, relayOk, relayForm, Bool.and_eq_true]
  repeat' apply And.intro
  all_goals try with_reducible apply message_crc
  all_goals decide +kernel

theorem wit_BeaconsProbesAndSilentPeers :
    let r : ProbeRound := {
      peer := 9, epoch := 6, peerEpoch := 6, sent := (List.range 16).map (fun i => (i, 100)), kept := [(4, 5)], answered := 14 }
    let s := relaying (fun e => { e with relay := { e.relay with rounds := [r] } })
    let probe := [3] ++ zeros 7 ++ le 8 100 ++ zeros 16
    let reply := [3] ++ zeros 7 ++ le 8 100 ++ le 8 500 ++ le 8 700
    inService s.eng = true ∧ relayOn s.eng = true ∧ relayOn (run id).eng = false ∧ IsMsg s.eng (message 2 9 probe) 2 9 probe
      ∧ peerAt s.eng 9 = some (0, ⟨9, 4, 1, 2, 3, 4, 50, none, 6⟩) ∧ peerAt s.eng 20 = none
      ∧ IsMsg s.eng (message 3 9 reply) 3 9 reply ∧ s.eng.relay.rounds.find? (fun r => r.peer == 9) = some r
      ∧ tget? r.sent (byteAt reply 0) = some 100 ∧ fieldAt reply 8 8 = (100 : Stamp).toNat ∧ r.answered < 15
      ∧ r.epoch = s.eng.time.epoch ∧ r.peerEpoch = epochOf (message 3 9 reply) ∧ (6 : U16) = epochOf (message 2 9 probe)
      ∧ 3000000 ≤ (s.eng.time.stamp - 50).toNat ∧ (s.eng.time.stamp - 2900000).toNat < 3000000 := by
  intro r s probe reply
  simp only [IsMsg, relayOk, relayForm, Bool.and_eq_true]
  repeat' apply And.intro
  all_goals try with_reducible apply message_crc
  all_goals decide +kernel

theorem wit_BatonMessages :
    let b : Baton := { sender := true, num := 4, peer := 9, slot := 9, offered := some 1, accepted := false, left := 0, sent := false }
    let r := { req7 with e := { req7.e with st := .handedOff }, w := { req7.w with baton := some 4 } }
    let s := relaying (fun e => inSlot 9 r { e with kv := { e.kv with batons := [b] }, time := { e.time with num := 100000000 } })
    let body (kind : Byte) : List Byte := [kind, 0, 3, 0] ++ le 4 4 ++ zeros 56
    inService s.eng = true ∧ IsMsg s.eng (message 4 9 (body 3)) 4 9 (body 3)
      ∧ peerAt s.eng 9 = some (0, ⟨9, 4, 1, 2, 3, 4, 50, none, 6⟩) ∧ (6 : U16) = epochOf (message 4 9 (body 3))
      ∧ s.eng.kv.batons.filter (fun x => x.num == 4 && batonOver s.eng x) = [b]
      ∧ (∀ x ∈ s.eng.kv.batons, x.num = 5 → batonOver s.eng x = false)
      ∧ byteAt (body 3) 0 = 3 ∧ byteAt (body 4) 0 = 4 ∧ byteAt (body 5) 0 = 5
      ∧ s.eng.kv.batons.filter (fun x => x.num == 4 && x.peer == 9) = [b] ∧ byteAt (body 1) 0 = 1
      ∧ isOpen s.eng (byteAt (body 1) 2) = false ∧ batonAt s.eng true 4 9 = some b ∧ batonAt s.eng true 4 10 = none
      ∧ reqAt s.eng b.slot = some r ∧ r.e.st = .handedOff ∧ r.w.baton = some b.num.toNat := by
  intro b r s body
  simp only [IsMsg, relayOk, relayForm, Bool.and_eq_true]
  repeat' apply And.intro
  all_goals try with_reducible apply message_crc
  all_goals decide +kernel

/-! ### Faults and observation -/

def record1 : FRec := {
  cls := .eccCorr, scope := 0, tc := 1, opened := true, count := 4, root := 5, reporter := 6, fstr := 7, lstr := 8, epoch := 9,
  first := 1, last := 2, detail := 3, ord := 4 }

theorem wit_FaultReportsOpenRecords :
    let site : Site := .sram ⟨1, .rqt 2⟩ 4095 (some 7)
    let r : FRec := { record1 with root := siteRoot site }
    let e0 := (run id).eng
    let e1 := (run (fun e => { e with flt := { e.flt with recs := [(7, r)] }, time := { e.time with epoch := 9, stamp := 100 } })).eng
    inService e0 = true ∧ inService e1 = true ∧ Waits .eccCorr ∧ Waits .tenantReset ∧ siteExists site = true
      ∧ siteFits .eccCorr site = true
      ∧ e0.flt.recs.find? (fun r => r.2.cls == .eccCorr && r.2.root == siteRoot site && r.2.opened) = none
      ∧ recPlace e0.flt.recs (recHome e0 (siteRoot site) (siteReporter site)) = some 448
      ∧ e1.flt.recs.find? (fun r => r.2.cls == .eccCorr && r.2.root == siteRoot site && r.2.opened) = some (7, r)
      ∧ (∀ x ∈ e1.flt.recs, recLive e1 x.2 = true)
      ∧ siteExists (.tile ⟨1, .glb .cp⟩) = false ∧ siteExists (.sram ⟨1, .rqt 2⟩ 4096 none) = false := by
  intro site r e0 e1
  repeat' apply And.intro
  all_goals decide +kernel

theorem wit_FaultsAreContained :
    let s (n : Stride) := run (fun e => inSlot 9 req7 (open3 id { e with
      sched := { e.sched with ext := [(n, .teardown 3 .eccTenant), (n, .teardown 4 .eccTenant)] } }))
    inService (s 5).eng = true ∧ entryDeep (s 5).eng = false ∧ reqAt (s 5).eng 9 = some req7 ∧ terminal req7.e.st = false
      ∧ inHold (s 5).eng = false ∧ isOpen (s 5).eng 3 = true ∧ isOpen (s 5).eng 4 = false ∧ (5 : Stride) ≠ (s 5).eng.time.num
      ∧ (∀ tc, tc = 3 ∨ tc = 4 → (s 5).eng.sched.ext.find? (fun x => x.2 == .teardown tc .eccTenant)
          = some (5, .teardown tc .eccTenant))
      ∧ (s 0).eng.sched.ext.find? (fun x => x.2 == .teardown 3 .eccTenant)
          = some ((s 0).eng.time.num, .teardown 3 .eccTenant)
      ∧ (s 0).eng.sched.ext.find? (fun x => x.2 == .teardown 5 .eccTenant) = none := by
  intro s
  refine ⟨by decide, by decide, by decide, by decide, by decide, by decide, by decide, by decide, fun tc h => ?_, by decide,
    by decide⟩
  rcases h with rfl | rfl <;> decide

theorem wit_FaultRecordsCloseAndLinksReturn :
    let x : Reload := { quad := 2, reads := 0, err := false }
    let s := run (fun e => { e with
      flt := { e.flt with recs := [(3 * 448 + 447, record1), (5, { record1 with epoch := 0, first := 999 })],
                          heldRaise := [.eccCorr, .eccObject], raised := [(.eccObject, 900)] },
      lead := { e.lead with resetQ := 4, quorum := 0xB, replOk := 0xB, reload := [x] }, time := { e.time with stamp := 1000 } })
    inService s.eng = true ∧ tget? s.eng.flt.recs ((3 : Quad).toNat * 448 + 447) = some record1 ∧ record1.opened = true
      ∧ record1.epoch ≠ s.eng.time.epoch ∧ tget? s.eng.flt.recs 4 = none
      ∧ tget? s.eng.flt.recs 5 = some { record1 with epoch := 0, first := 999 }
      ∧ (s.eng.time.stamp - 999).toNat < 1000 * max 1 (regN s.eng rFLT_CTRL 15 0)
      ∧ s.eng.flt.heldRaise.contains .eccCorr = true ∧ (∀ x ∈ s.eng.flt.raised, x.1 ≠ .eccCorr)
      ∧ (∃ x ∈ s.eng.flt.raised, x.1 = .eccObject ∧ (s.eng.time.stamp - x.2).toNat < 10000)
      ∧ s.eng.flt.heldRaise.contains .eccQuad = false ∧ s.eng.lead.resetQ.getLsbD 2 = true
      ∧ s.eng.lead.reload.find? (fun x => x.quad == 2) = some x ∧ x.reads = 0 ∧ x.err = false
      ∧ (s.eng.lead.quorum &&& s.eng.lead.replOk &&& ~~~s.eng.lead.resetQ).getLsbD 0 = true
      ∧ (s.eng.lead.quorum &&& s.eng.lead.replOk &&& ~~~s.eng.lead.resetQ).getLsbD 2 = false
      ∧ (∀ i ∈ s.eng.images, imageGood s.eng i = true) ∧ s.eng.lead.resetQ.getLsbD 3 = false := by
  intro x s
  repeat' apply And.intro
  all_goals decide +kernel

theorem wit_WatchdogSamplesAndTrace :
    let idle := run (setReg rDBG_TRACE_CTRL 0x80000000)
    let s := run (fun e => setReg rDBG_TRACE_CTRL 0x80000000 (setReg rDBG_PCS_CTRL 0x80000004 (setReg rDBG_HANG_CTRL 5
      { e with time := { e.time with valid := true }, trace := { e.trace with queue := [(3, [1])] } })))
    inService s.eng = true ∧ regN s.eng rDBG_HANG_CTRL 15 0 ≠ 0 ∧ s.eng.pwr.eng < 2 ∧ s.eng.time.valid = true
      ∧ regB s.eng rDBG_PCS_CTRL 31 = true ∧ regB s.eng rDBG_PCS_CTRL 2 = true ∧ regB s.eng rDBG_PCS_CTRL 3 = false
      ∧ regB s.eng rDBG_TRACE_CTRL 31 = true ∧ s.eng.trace.queue ≠ [] ∧ idle.eng.trace.queue = []
      ∧ regB idle.eng rDBG_TRACE_CTRL 31 = true ∧ regB (run id).eng rDBG_TRACE_CTRL 31 = false
      ∧ (run id).eng.time.valid = false := by
  intro idle s
  repeat' apply And.intro
  all_goals decide +kernel

theorem wit_EveryStepKeepsMemoryCanonical :
    memWf (run (wr 0x4000 [1, 0, 2])).eng.mem = true ∧ ∃ t, step (run (wr 0x4000 [1, 0, 2])) = .next t :=
  ⟨by decide, _, rfl⟩

theorem wit_EveryStepKeepsRequestSlotsRising :
    Rising (run (inSlot 9 req7)).eng.rq.slots ∧ ∃ t, step (run (inSlot 9 req7)) = .next t :=
  ⟨List.pairwise_singleton _ _, _, rfl⟩

end

end Sys2Proof.Tests
end

/-! # Register accesses: what a read returns and what the port turns away (18_register_map.md; R286, R309, R310) -/

namespace Sys2Proof.Proofs

open Sys2Proof Sys2Proof.Machine Sys2Proof.Certs Sys2Proof.Laws

/-! ## The rows of the control port, while it answers at once -/

section Rows

variable {s : State} (hs : PortOpen s)
include hs

theorem opCp_portOpen (a : CpAccess) : opCp a s.eng = cpDo a s.eng := by
  obtain ⟨hreset, hstate, hentry⟩ := hs
  exact opCp_open hreset hstate hentry a

theorem exec_registerRead (off : Offset) (size64 priv : Bool) :
    exec (.registerRead off size64 priv) s = goes s (cpDo (rdAcc off size64 priv) s.eng) := by
  rw [← opCp_portOpen hs]; rfl

theorem exec_rcRead (off : Offset) (size64 priv : Bool) :
    exec (.rcRead off size64 priv) s = goes s (cpDo (rdAcc off size64 priv) s.eng) := by
  rw [← opCp_portOpen hs]; rfl

theorem exec_lowHalfReadLatch (off : Offset) (priv : Bool) :
    exec (.lowHalfReadLatch off priv) s = goes s (cpDo (rdAcc off false priv) s.eng) := by
  rw [← opCp_portOpen hs]; rfl

theorem exec_registerWrite (off : Offset) (size64 : Bool) (val : U64) (priv : Bool) :
    exec (.registerWrite off size64 val priv) s
      = goes s (cpDo { write := true, off := off, size64 := size64, priv := priv, data := val } s.eng) := by
  rw [← opCp_portOpen hs]; rfl

end Rows

/-! ## Accesses the port turns away -/

/-- Alignment is judged before the view (log entry 58). -/
theorem cpDo_misaligned_write {a : CpAccess} (e : Engine) (hw : a.write = true)
    (h : a.off.toNat % (if a.size64 then 8 else 4) ≠ 0) :
    cpDo a e = answer 0 true (bumpSat rCP_PORT_ERR 55 48 1 e) := by
  simp [cpDo, h, hw]

/-- R286: below 0x10000 the tenant view has no register. -/
theorem cpDo_out_of_view {a : CpAccess} (e : Engine) (ha : a.off.toNat % 8 = 0) (hp : a.priv = false)
    (ho : a.off.toNat < 0x10000) : cpDo a e = answer 0 false (bumpOpen rCP_VIEW_ERR 31 0 1 e) := by
  have aligned : a.off.toNat % (if a.size64 then 8 else 4) = 0 := by split <;> omega
  simp [cpDo, aligned, hp, ho]

/-! ## What a read returns -/

theorem infoAt_off {o : Nat} {r : RegInfo} (h : infoAt o = some r) : r.off = o := by
  have found {l : List RegInfo} (hf : l.find? (fun r => r.off == o) = some r) : r.off = o := by
    simpa using List.find?_some hf
  unfold infoAt at h
  split at h
  · split at h
    · exact found h
    · split at h <;> exact found h
  · split at h
    · obtain ⟨_, _, rfl⟩ := Option.map_eq_some_iff.1 h
      rfl
    · cases h

/-- A register that was not written since reset reads its reset value. -/
theorem reg_unwritten {e : Engine} {o : Nat} (h : tget? e.regs o = none) : reg e o = resetOf o := by
  simp [reg, h]

theorem rcClear_none {r : RegInfo} (e : Engine) (h : r.rc = 0) : rcClear r e = e := by simp [rcClear, h]

theorem rcClear_some {r : RegInfo} (e : Engine) (h : r.rc ≠ 0) :
    rcClear r e = setReg r.off (reg e r.off &&& ~~~BitVec.ofNat 64 r.rc) e := by simp [rcClear, h]

/-- A register of the privileged window that no other state holds, DBG_CNT apart, has its stored value. -/
theorem regValue_stored {o : Nat} (e : Engine) (ho : o < 0x1000) (hc : o ≠ rDBG_CNT) (hv : tget? privValues o = none) :
    regValue o e = (reg e o, e) := by
  have hd : o ≠ rFLT_DATA := by
    rintro rfl
    cases hv
  simp [regValue, hc, hd, ho, hv]

theorem readWhole_plain {r : RegInfo} {e : Engine} {v : U64} (h : regValue r.off e = (v, e)) (hrc : r.rc = 0)
    (hwo : r.wo = 0) : readWhole r e = (v, e) := by
  simp only [readWhole, h, rcClear_none e hrc, hwo, BitVec.not_zero, BitVec.and_allOnes]

theorem dbgCnt_wide {r : RegInfo} (h : infoAt rDBG_CNT = some r) : r.wide = true := by
  have : (infoAt rDBG_CNT).map (·.wide) = some true := rfl
  simpa [h] using this

theorem read32_narrow {o : Nat} {r : RegInfo} (e : Engine) (h : infoAt o = some r) (hw : r.wide = false) :
    read32 o e = ((readWhole r e).1 &&& 0xFFFFFFFF, (readWhole r e).2) := by
  simp [read32, h, latches, hw]

/-- A 32-bit read of a stored register of the privileged window returns its value, write-only bits zero, and clears its
RC fields. -/
theorem read32_stored {o : Nat} {r : RegInfo} (e : Engine) (h : infoAt o = some r) (hw : r.wide = false)
    (ho : o < 0x1000) (hv : tget? privValues o = none) :
    read32 o e = (reg e o &&& ~~~BitVec.ofNat 64 r.wo &&& 0xFFFFFFFF, rcClear r e) := by
  have hc : o ≠ rDBG_CNT := by
    rintro rfl
    simp [dbgCnt_wide h] at hw
  rw [read32_narrow e h hw, readWhole, infoAt_off h, regValue_stored e ho hc hv]

/-- R310: the low half of a register that software does not write latches the high half. -/
theorem read32_latching {o : Nat} {r : RegInfo} (e : Engine) (h : infoAt o = some r) (hl : latches r = true) :
    read32 o e = ((readWhole r e).1 &&& 0xFFFFFFFF,
      { (readWhole r e).2 with
        hiLatch := tset (readWhole r e).2.hiLatch o (((readWhole r e).1 >>> 32).setWidth 32) }) := by
  simp [read32, h, hl]

/-- R310: the high half of such a register reads as latched. -/
theorem read32_latched {o : Nat} {r : RegInfo} {e : Engine} {x : U32} (ho : o % 8 = 0) (h : infoAt o = some r)
    (hhigh : infoAt (o + 4) = none) (hl : latches r = true) (hx : tget? e.hiLatch o = some x) :
    read32 (o + 4) e = (x.setWidth 64, e) := by
  have h4 : (o + 4) % 8 = 4 := by omega
  have hw : r.wide = true := by
    unfold latches at hl
    exact (Bool.and_eq_true_iff.1 hl).1
  simp [read32, hhigh, h4, h, hw, hl, hx]

/-! ## CP_IPREV and CP_SPLIT -/

theorem infoAt_iprev : infoAt rCP_IPREV
    = some { off := 0, wide := false, rw := 0, rwp := 0, w1c := 0, rc := 0, wo := 0, reset := 0x7A090402 } := by
  rfl

theorem infoAt_split : infoAt rCP_SPLIT
    = some { off := 0x120, wide := true, rw := 0, rwp := 0, w1c := 0, rc := 0, wo := 0, reset := 0 } := by
  rfl

theorem infoAt_split_high : infoAt (rCP_SPLIT + 4) = none := rfl

theorem regValue_split (e : Engine) : regValue rCP_SPLIT e = (e.time.stamp, e) := rfl

theorem read32_iprev {e : Engine} (h : tget? e.regs rCP_IPREV = none) : read32 rCP_IPREV e = (0x7A090402, e) := by
  rw [read32_stored e infoAt_iprev rfl (by decide) rfl, reg_unwritten h, resetOf, infoAt_iprev, rcClear_none e rfl]
  rfl

theorem read32_split_low (e : Engine) : read32 rCP_SPLIT e = (e.time.stamp &&& 0xFFFFFFFF,
    { e with hiLatch := tset e.hiLatch rCP_SPLIT ((e.time.stamp >>> 32).setWidth 32) }) := by
  rw [read32_latching e infoAt_split rfl, readWhole_plain (regValue_split e) rfl rfl]

theorem read32_split_high {e : Engine} {x : U32} (hx : tget? e.hiLatch rCP_SPLIT = some x) :
    read32 (rCP_SPLIT + 4) e = (x.setWidth 64, e) :=
  read32_latched rfl infoAt_split infoAt_split_high rfl hx

/-! ## The obligation -/

/-- A 32-bit privileged read, done: the answer carries what the register read returns. -/
theorem cpDo_read_priv {off : Offset} {v : U64} {e e' : Engine} (ha : off.toNat % 4 = 0)
    (h : read32 off.toNat e = (v, e')) : cpDo (rdAcc off false true) e = answer v false e' := by
  rw [cpDo_read32 off true e ha (.inl rfl), h]

/-- Settles O15: the port does the access at once, and the laws of reads above say what it answers. -/
theorem registerReadsAndBadAccesses : Obligations.RegisterReadsAndBadAccesses := by
  unfold Obligations.RegisterReadsAndBadAccesses
  refine ⟨fun s off r hs ha hr hw ho hv => ?_, fun s hs => ⟨?_, fun x hx => ?_⟩, fun s off val priv hs => ⟨?_, ?_, ?_, ?_⟩⟩
  · have hread := read32_stored s.eng hr hw ho hv
    refine ⟨fun hrc => ?_, fun hrc => ?_, ?_⟩
    · rw [rcClear_none s.eng hrc] at hread
      rw [exec_registerRead hs, cpDo_read_priv ha hread]
    · rw [rcClear_some s.eng hrc, infoAt_off hr] at hread
      rw [exec_rcRead hs, cpDo_read_priv ha hread]
    · rintro rfl hregs
      rw [exec_registerRead hs, cpDo_read_priv ha (read32_iprev hregs)]
  · rw [exec_lowHalfReadLatch hs, cpDo_read_priv (off := BitVec.ofNat 21 rCP_SPLIT) rfl (read32_split_low s.eng)]
  · rw [exec_registerRead hs, cpDo_read_priv (off := BitVec.ofNat 21 (rCP_SPLIT + 4)) rfl (read32_split_high hx)]
  · intro hmis
    rw [exec_registerWrite hs, cpDo_misaligned_write s.eng rfl (by simpa using hmis)]
  · intro hmis
    rw [exec_registerWrite hs, cpDo_misaligned_write s.eng rfl (by simpa using hmis)]
  · intro ha ho w
    rw [exec_registerWrite hs, cpDo_out_of_view s.eng ha rfl ho]
  · intro ha ho w
    rw [exec_registerRead hs, cpDo_out_of_view s.eng ha rfl ho]

end Sys2Proof.Proofs

/-! # The state after reset, register by register (R409, R410) -/

namespace Sys2Proof.Proofs

open Sys2Proof Sys2Proof.Machine Sys2Proof.Certs Sys2Proof.Laws

/-! ## Entries of a table -/

theorem mem_of_tget? {α : Type} {t : Table α} {n : Nat} {v : α} (h : tget? t n = some v) : (n, v) ∈ t := by
  induction t with
  | nil => simp at h
  | cons p t ih =>
    obtain ⟨k, x⟩ := p
    rw [tget?_cons] at h
    split at h
    next hk =>
      obtain rfl := Option.some.inj h
      exact hk ▸ List.mem_cons_self
    next => exact List.mem_cons_of_mem _ (ih h)

theorem tget?_none_of_not_mem {α : Type} {t : Table α} {n : Nat} (h : n ∉ tkeys t) : tget? t n = none := by
  cases hv : tget? t n with
  | none => rfl
  | some v => exact absurd (List.mem_map_of_mem (f := Prod.fst) (mem_of_tget? hv)) h

/-! ## Where a page stands in the window (R400) -/

theorem page_offset (tc : Nat) {p : Nat} (hp : p < 0x1000) : page tc p % 0x1000 = p := by unfold page; omega

theorem page_tenant (tc : Nat) {p : Nat} (hp : p < 0x1000) : (page tc p - 0x100000) / 0x1000 = tc := by
  unfold page; omega

theorem page_window (tc : U8) {p : Nat} (hp : p < 0x1000) :
    0x100000 ≤ page tc.toNat p ∧ page tc.toNat p < 0x200000 := by
  have := tc.isLt
  unfold page; omega

/-! ## Reset values of the registers of a page and of the vectors -/

theorem vecRegs_find_reset {b : Nat} {f : RegInfo → Bool} {r : RegInfo} (h : (vecRegs b).find? f = some r) :
    r.reset = 0 := by
  have hr := List.mem_of_find?_eq_some h
  simp only [vecRegs, List.mem_cons, List.not_mem_nil, or_false] at hr
  rcases hr with rfl | rfl | rfl <;> rfl

/-- The register at page offset `p` is that of the vectors or of the page's table, with the tenant's number as the reset
value of IDX_TDOMAIN. -/
theorem infoAt_page (tc : U8) {p : Nat} (hp : p < 0x1000) :
    infoAt (page tc.toNat p)
      = (if 0x100 ≤ p ∧ p < 0x180 then (vecRegs (p / 16 * 16)).find? (fun r => r.off == p)
          else pageRegs.find? (fun r => r.off == p)).map
        fun r => { r with off := page tc.toNat p, reset := if p = 0x80 then tc.toNat else r.reset } := by
  have hwin := page_window tc hp
  have hlow : ¬ page tc.toNat p < 0x1000 := by omega
  simp only [infoAt, hlow, hwin, page_offset _ hp, page_tenant _ hp, if_false, if_true, and_self]

theorem pageRegs_lookup : ∀ r ∈ pageRegs, r.off < 0x1000 ∧ ¬ (0x100 ≤ r.off ∧ r.off < 0x180)
    ∧ pageRegs.find? (fun x => x.off == r.off) = some r := by decide +kernel

theorem resetOf_page (tc : U8) {p : Nat} {r : RegInfo} (hp : p < 0x1000) (hvec : ¬ (0x100 ≤ p ∧ p < 0x180))
    (h : pageRegs.find? (fun x => x.off == p) = some r) :
    resetOf (page tc.toNat p) = BitVec.ofNat 64 (if p = 0x80 then tc.toNat else r.reset) := by
  simp [resetOf, infoAt_page tc hp, hvec, h]

theorem resetOf_pageVec (tc : U8) {p : Nat} (h1 : 0x100 ≤ p) (h2 : p < 0x180) : resetOf (page tc.toNat p) = 0 := by
  have h80 : p ≠ 0x80 := by omega
  rw [resetOf, infoAt_page tc (by omega), if_pos ⟨h1, h2⟩]
  cases hv : (vecRegs (p / 16 * 16)).find? (fun r => r.off == p) with
  | none => rfl
  | some r => simp [h80, vecRegs_find_reset hv]

theorem resetOf_privVec {o : Nat} (h1 : 0x200 ≤ o) (h2 : o < 0x400) : resetOf o = 0 := by
  have ho : o < 0x1000 := by omega
  simp only [resetOf, infoAt, ho, h1, h2, and_self, if_true]
  cases hv : (vecRegs (o / 16 * 16)).find? (fun r => r.off == o) with
  | none => rfl
  | some r => simp [vecRegs_find_reset hv]

/-! ## What registers read right after reset -/

theorem reg_reset (o : Nat) : reg State.reset.eng o = resetOf o := reg_unwritten rfl

theorem laneOf_reset (l : Nat) : laneOf State.reset.eng l = Lane.fresh := rfl

/-- A register of a page reads the value that other state holds, or else the stored one. -/
theorem regValue_page (tc : U8) {p : Nat} (hp : p < 0x1000) (e : Engine) :
    (regValue (page tc.toNat p) e).1
      = ((tget? (pageValues tc.toNat) p).map (fun f => f e)).getD (reg e (page tc.toNat p)) := by
  obtain ⟨hwin, -⟩ := page_window tc hp
  have hlow : ¬ page tc.toNat p < 0x1000 := by omega
  have hcnt : page tc.toNat p ≠ rDBG_CNT := by unfold rDBG_CNT; omega
  have hdata : page tc.toNat p ≠ rFLT_DATA := by unfold rFLT_DATA; omega
  simp only [regValue, hcnt, hdata, hlow, page_offset _ hp, page_tenant _ hp, if_false, false_and]
  cases tget? (pageValues tc.toNat) p <;> rfl

/-- What other state holds of a page reads 0 after reset, the state of the context apart. -/
theorem pageValues_reset (tc : U8) : ∀ x ∈ pageValues tc.toNat, x.1 ≠ 0x30 → x.2 State.reset.eng = 0 := by
  have hlanes : lanesOf State.reset.eng tc.toNat [.granted] = [] :=
    List.filter_eq_nil_iff.2 fun l _ => by simp [laneOf_reset, Lane.fresh]
  have hslow : reg State.reset.eng (rLANE_TSLOW tc.toNat) = 0 := by
    rw [reg_reset, rLANE_TSLOW, resetOf_page tc (by decide) (by decide) rfl]; rfl
  have hwatch : reg State.reset.eng (rDBG_TWATCH tc.toNat) = 0 := by
    rw [reg_reset, rDBG_TWATCH, resetOf_page tc (by decide) (by decide) rfl]; rfl
  have hturn : fields [(16, 0), (3, b2n false), (0, lsCode .gen)] = 0 := by decide
  have hsmax : setField 0 31 16 0 = 0 := by decide
  have hdflt : setField 0 3 0 0 = 0 := by decide
  simp only [pageValues, List.forall_mem_cons, hlanes, hslow, hwatch]
  exact ⟨fun h => absurd rfl h, fun _ => rfl, fun _ => rfl, fun _ => hturn, fun _ => rfl, fun _ => rfl, fun _ => hsmax,
    fun _ => hdflt, List.forall_mem_nil _⟩

theorem pageValues_keys (tc : Nat) : tkeys (pageValues tc) = [0x30, 0x60, 0x64, 0xB0, 0xB4, 0x180, 0x190, 0x1C8] := rfl

/-- A register of a page reads its reset value after reset, CP_TC_STATE apart; those held elsewhere have reset value 0. -/
theorem regValue_page_reset (tc : U8) {r : RegInfo} (h : r ∈ pageRegs) (hst : r.off ≠ 0x30) :
    (regValue (page tc.toNat r.off) State.reset.eng).1 = BitVec.ofNat 64 (if r.off = 0x80 then tc.toNat else r.reset) := by
  obtain ⟨hp, hvec, hfind⟩ := pageRegs_lookup r h
  rw [regValue_page tc hp]
  cases hf : tget? (pageValues tc.toNat) r.off with
  | none => exact (reg_reset _).trans (resetOf_page tc hp hvec hfind)
  | some f =>
    have held : ∀ r ∈ pageRegs, r.off ∈ [0x30, 0x60, 0x64, 0xB0, 0xB4, 0x180, 0x190, 0x1C8] →
        r.off ≠ 0x80 ∧ r.reset = 0 := by decide
    have hmem := mem_of_tget? hf
    obtain ⟨h80, h0⟩ := held r h (pageValues_keys tc.toNat ▸ List.mem_map_of_mem (f := Prod.fst) hmem)
    rw [if_neg h80, h0]
    exact pageValues_reset tc _ hmem hst

theorem tcState_reset (tc : U8) : (regValue (page tc.toNat 0x30) State.reset.eng).1 = if tc = 0 then 1 else 0 := by
  rw [regValue_page tc (by decide)]
  change fields [(8, 0), (0, tsCode (if tc.toNat = 0 then .opened else .free))] = _
  by_cases h : tc = 0
  · subst h; rfl
  · have hn : tc.toNat ≠ 0 := fun h0 => h (BitVec.eq_of_toNat_eq h0)
    rw [if_neg hn, if_neg h]; rfl

/-- The registers of every vector read 0 after reset. -/
theorem regValue_vector_reset (v : VecId) {w : Nat} (hw : w < 16) : (regValue (vecBase v + w) State.reset.eng).1 = 0 := by
  cases v with
  | pv v =>
    have hv := v.isLt
    have hbase : vecBase (.pv v) = 0x200 + 16 * v.toNat := rfl
    have h1 : 0x200 ≤ vecBase (.pv v) + w := by omega
    have h2 : vecBase (.pv v) + w < 0x400 := by omega
    have hc : vecBase (.pv v) + w ≠ rDBG_CNT := by unfold rDBG_CNT; omega
    have free : ∀ k ∈ tkeys privValues, ¬ (0x200 ≤ k ∧ k < 0x400) := by decide
    rw [regValue_stored _ (by omega) hc (tget?_none_of_not_mem fun h => free _ h ⟨h1, h2⟩)]
    exact (reg_reset _).trans (resetOf_privVec h1 h2)
  | tv tc v =>
    have hv := v.isLt
    have hbase : vecBase (.tv tc v) + w = page tc.toNat (0x100 + 16 * v.toNat + w) := by
      simp only [vecBase, page]; omega
    have free : ∀ k ∈ tkeys (pageValues tc.toNat), ¬ (0x100 ≤ k ∧ k < 0x180) := by rw [pageValues_keys]; decide
    rw [hbase, regValue_page tc (by omega), tget?_none_of_not_mem fun h => free _ h ⟨by omega, by omega⟩]
    exact (reg_reset _).trans (resetOf_pageVec tc (by omega) (by omega))

theorem privNumbers_reset : ∀ x ∈ resetNumbers, (regValue x.1 State.reset.eng).1 = BitVec.ofNat 64 x.2 := by
  decide +kernel

/-- DBG_CNT apart, a register that R409 gives no other number reads 0 after reset. -/
theorem privZeros_reset : ∀ r ∈ privRegs, r.off ∉ resetNumbers.map (·.1) → r.off ∉ resetOpen → r.off ≠ rDBG_CNT →
    (regValue r.off State.reset.eng).1 = 0 := by
  decide +kernel

/-- DBG_CNT selects counter 0 of group 0 after reset, a measured one: its first reading is a free value (log entry 5). -/
theorem dbgCnt_reset : (regValue rDBG_CNT State.reset.eng).1 = BitVec.ofNat 64 (Config.measured 0) := by
  change 0#64 + BitVec.ofNat 64 (Config.measured 0) = _
  exact BitVec.zero_add _

theorem place_reset : ∀ q : Quad, (regValue (0x40 + 4 * q.toNat) State.reset.eng).1 = q.setWidth 64 := by decide +kernel

theorem page_reset (tc : U8) :
    (∀ x ∈ pageNumbers, (regValue (page tc.toNat x.1) State.reset.eng).1 = BitVec.ofNat 64 x.2)
      ∧ (regValue (page tc.toNat 0x80) State.reset.eng).1 = tc.setWidth 64
      ∧ (regValue (page tc.toNat 0x30) State.reset.eng).1 = (if tc = 0 then 1 else 0)
      ∧ ∀ r ∈ pageRegs, r.off ∉ [0x30, 0x80] → r.off ∉ pageNumbers.map (·.1) →
        (regValue (page tc.toNat r.off) State.reset.eng).1 = 0 := by
  refine ⟨fun x hx => ?_, ?_, tcState_reset tc, fun r hr hst hnum => ?_⟩
  · have listed : ∀ x ∈ pageNumbers, ∃ r ∈ pageRegs, r.off = x.1 ∧ r.reset = x.2 ∧ x.1 ≠ 0x30 ∧ x.1 ≠ 0x80 := by
      decide
    obtain ⟨r, hr, hoff, hreset, h30, h80⟩ := listed x hx
    have h := regValue_page_reset tc hr (hoff ▸ h30)
    rwa [hoff, if_neg h80, hreset] at h
  · have listed : ∃ r ∈ pageRegs, r.off = 0x80 := by decide
    obtain ⟨r, hr, hoff⟩ := listed
    have h := regValue_page_reset tc hr (by omega)
    rwa [hoff, if_pos rfl, BitVec.ofNat_toNat] at h
  · have zero : ∀ r ∈ pageRegs, r.off ∉ [0x30, 0x80] → r.off ∉ pageNumbers.map (·.1) → r.reset = 0 := by decide
    obtain ⟨h30, h80⟩ : r.off ≠ 0x30 ∧ r.off ≠ 0x80 := by simpa using hst
    rw [regValue_page_reset tc hr h30, if_neg h80, zero r hr hst hnum]
    rfl

theorem context_reset (tc : U8) : (ten State.reset.eng tc.toNat).st = (if tc = 0 then .opened else .free)
    ∧ (ten State.reset.eng tc.toNat).tseed = tc.setWidth 128 := by
  refine ⟨?_, BitVec.ofNat_toNat 128 tc⟩
  change (if tc.toNat = 0 then TState.opened else .free) = _
  have : tc.toNat = 0 ↔ tc = 0 := ⟨fun h => BitVec.eq_of_toNat_eq h, fun h => h ▸ rfl⟩
  simp only [this]

/-- ResetStateIsAsStated holds of everything but one word: it claims that DBG_CNT reads 0, where the model answers the free
value of a measured counter (log entry 5). The statement comes down to this equation on an opaque constant of Config. -/
theorem resetStateIsAsStated_iff : Obligations.ResetStateIsAsStated ↔ BitVec.ofNat 64 (Config.measured 0) = 0 := by
  unfold Obligations.ResetStateIsAsStated
  constructor
  · rintro ⟨-, -, -, -, -, hzero, -⟩
    have listed : ∃ r ∈ privRegs, r.off = rDBG_CNT := by decide
    obtain ⟨r, hr, hoff⟩ := listed
    have h := hzero r hr (hoff ▸ by decide) (hoff ▸ by decide)
    rwa [hoff, dbgCnt_reset] at h
  · intro hcnt
    have hzero : ∀ r ∈ privRegs, r.off ∉ resetNumbers.map (·.1) → r.off ∉ resetOpen →
        (regValue r.off State.reset.eng).1 = 0 := by
      intro r hr hnum hopen
      by_cases hoff : r.off = rDBG_CNT
      · rw [hoff, dbgCnt_reset, hcnt]
      · exact privZeros_reset r hr hnum hopen hoff
    refine ⟨rfl, rfl, rfl, .nil, privNumbers_reset, hzero, place_reset, page_reset, fun v w hw => ?_, rfl, rfl, rfl, rfl,
      rfl, rfl, rfl, rfl, rfl, rfl, rfl, rfl, context_reset, rfl, rfl, rfl, rfl, rfl, rfl, rfl, rfl, rfl,
      fun q => ⟨rfl, rfl, rfl⟩, fun l => rfl⟩
    exact regValue_vector_reset v (by omega)

end Sys2Proof.Proofs

/-! # The step boundary with no request and nothing computing (R105, R114, R350, R385) -/

namespace Sys2Proof.Proofs

open Sys2Proof Sys2Proof.Machine Sys2Proof.Certs Sys2Proof.Laws

/-! ## Passes over a request table without requests -/

section NoRequests

variable {e : Engine} (hslots : e.rq.slots = []) (hparked : e.rq.parked = [])

theorem withSlots_nil (hslots : e.rq.slots = []) : { e with rq := { e.rq with slots := [] } } = e := by
  rw [← hslots]

theorem withTables_nil (hslots : e.rq.slots = []) (hparked : e.rq.parked = []) :
    { e with rq := { e.rq with slots := [], parked := [] } } = e := by
  rw [← hslots, ← hparked]

include hslots

theorem liveReqs_noSlots : liveReqs e = [] := by simp [liveReqs, hslots]

theorem draftsOff_noSlots : draftsOff e = e := by
  unfold draftsOff
  split
  · rfl
  · rw [hslots, List.map_nil, withSlots_nil hslots]

theorem updateWaits_noSlots (granted : List Nat) : updateWaits granted e = e := by
  simp [updateWaits, liveReqs_noSlots hslots]

theorem markHeld_noSlots : markHeld [] e = e := by
  simp only [markHeld, List.foldl_nil, hslots, List.map_nil, withSlots_nil hslots]

theorem project_noSlots (skip : Nat → Bool) : project skip e = (bumpOpen rRQT_DL_RISK 31 0 0 e, []) := by
  simp [project, liveReqs_noSlots hslots]

theorem candidates_noSlots (res : Nat → PolRes) : candidates e res = [] := by
  simp [candidates, liveReqs_noSlots hslots, sortBy, beMerge]

include hparked

theorem holdsEnd_noReqs (n : Stride) (bnd : Bool) : holdsEnd n bnd e = e := by simp [holdsEnd, hslots, hparked]

/-- Step P2 still counts its re-pins, none of them. -/
theorem repins_noReqs : repins e = bumpOpen rVAR_ASTAT 31 0 0 e := by
  simp [repins, allReqs, hslots, hparked, withTables_nil hslots hparked]

theorem lateRules_noReqs : lateRules e = e := by
  simp [lateRules, hslots, hparked, withTables_nil hslots hparked]

theorem countStale_noReqs : countStale e = e := by simp [countStale, hslots, hparked]

omit hslots in
theorem slotOffers_noParked : slotOffers e = e := by simp [slotOffers, hparked, sortBy]

end NoRequests

theorem choosePlan_nil (e : Engine) : choosePlan [] e = (e, none) := by
  unfold choosePlan
  split
  · rfl
  · rfl

/-- A pass over numbers each of which leaves the engine as it is. -/
theorem foldl_unchanged {f : Engine → Nat → Engine} {e : Engine} (h : ∀ n, f e n = e) (ns : List Nat) :
    ns.foldl f e = e := by
  induction ns with
  | nil => rfl
  | cons n ns ih => rw [List.foldl_cons, h n, ih]

theorem dlIrqs_noEvents {e : Engine} (h : ∀ tc, (ten e tc).dl = { late := 0, fbk := 0, risk := 0 }) : dlIrqs e = e :=
  foldl_unchanged (fun tc => by simp [dlIrq, h]) _

/-! ## What issuing a heat changes -/

/-- `e'` is `e` with other counters. -/
def CountsOnly (e e' : Engine) : Prop := ∃ c, e' = { e with cnt := c }

theorem CountsOnly.refl (e : Engine) : CountsOnly e e := ⟨_, rfl⟩

theorem CountsOnly.trans {a b c : Engine} (h1 : CountsOnly a b) (h2 : CountsOnly b c) : CountsOnly a c := by
  obtain ⟨_, rfl⟩ := h1
  obtain ⟨_, rfl⟩ := h2
  exact ⟨_, rfl⟩

theorem CountsOnly.count {a b : Engine} (h : CountsOnly a b) (g i n : Nat) : CountsOnly a (Machine.count g i n b) :=
  h.trans (count_frame g i n b)

theorem CountsOnly.tcount {a b : Engine} (h : CountsOnly a b) (g i n : Nat) : CountsOnly a (Machine.tcount g i n b) :=
  h.trans (tcount_frame g i n b)

theorem CountsOnly.ite {a b c : Engine} {p : Prop} [Decidable p] (hb : CountsOnly a b) (hc : CountsOnly a c) :
    CountsOnly a (if p then b else c) := by
  split
  · exact hb
  · exact hc

/-- The counts of a heat change the counters and the use of its model only. -/
theorem countHeat_frame (h : Heat) (e : Engine) : ∃ c m, countHeat h e = { e with cnt := c, models := m } := by
  have heats := (((CountsOnly.refl e).count 3 0 1).count 3 2 h.rows.length).count 3 3 h.tok
  have empty := CountsOnly.ite (p := h.plan.isNone = true) (heats.count 3 1 1) heats
  have learn := CountsOnly.ite (p := h.learn = true) (empty.count 3 14 1) empty
  obtain ⟨c, hc⟩ := List.foldlRecOn (motive := CountsOnly e) (heatTenants h) (fun e tc =>
    let mine := h.rows.filter (fun r => r.tc == tc)
    tcount tc 2 (mine.map (·.ntok)).sum (tcount tc 1 mine.length (tcount tc 0 1 e))) learn
    fun _ hb tc _ => ((hb.tcount tc 0 1).tcount tc 1 _).tcount tc 2 _
  unfold countHeat
  dsimp only at hc ⊢
  rw [hc]
  exact ⟨_, _, rfl⟩

/-- The units of the four manifests change the ports only. -/
theorem pushManifests_frame (h : Heat) (qs : List Nat) (e : Engine) :
    ∃ p, qs.foldl (fun e q => mpPush q (manifestUnits e h q) e) e = { e with port := p } := by
  induction qs generalizing e with
  | nil => exact ⟨_, rfl⟩
  | cons q qs ih =>
    obtain ⟨m, hm⟩ := mpPush_frame q (manifestUnits e h q) e
    rw [List.foldl_cons, hm]
    exact ih _

/-- A heat that is issued is the one computing, and its number is used up. -/
theorem emitHeat_frame (h : Heat) (e : Engine) : ∃ hs p t r k c m,
    emitHeat h e = { e with
      heat := hs, port := p, trace := t, regs := r, free := k, cnt := c, models := m }
    ∧ hs.cur = some h ∧ hs.count = e.heat.count + 1 := by
  unfold emitHeat
  dsimp only
  obtain ⟨p, hp⟩ := pushManifests_frame h (List.range 4) { e with heat := { e.heat with
    count := e.heat.count + 1, cur := some h, flights := [],
    lastPlan := BitVec.ofNat 16 (h.plan.getD 0xFFFF), lastFilled := BitVec.ofNat 16 h.rows.length,
    lastHeat := h.num } }
  rw [hp]
  split
  · obtain ⟨t, r, k, ht⟩ := tracePush_frame 6 (heatSummary _ h) _
    obtain ⟨c, m, hc⟩ := countHeat_frame h _
    exact ⟨_, p, t, r, k, c, m, by rw [ht, hc], rfl, rfl⟩
  · obtain ⟨c, m, hc⟩ := countHeat_frame h _
    exact ⟨_, p, _, _, _, c, m, hc, rfl, rfl⟩

/-! ## What a boundary comes to -/

/-- The heat that a boundary issues when it finds nothing to place (R114). -/
def emptyHeat (e : Engine) : Heat := mkHeat e none 0xFF false false e.pver [] []

/-- The heat of a boundary that finds nothing to place: none in HOLD (R385). -/
def bareHeat (e : Engine) : Engine := if inHold e then e else emitHeat (emptyHeat e) e

/-- The engine whose boundary is being taken: it waits no longer, and was not held. -/
def unwait (e : Engine) : Engine := modSched (fun s => { s with bndWait := false, held := false }) e

theorem modSched_unwait (e : Engine) : modSched (fun s => { s with bndWait := false, held := false }) e = unwait e := rfl

/-! ## An engine in which a boundary finds nothing to do -/

/-- Neither request, heat, learn owner, expert set, adapter slot, grant stream nor deadline event; no slowdown is still
to be told, no boundary was held, and every context is FREE or OPEN. -/
structure Bare (e : Engine) : Prop where
  slots : e.rq.slots = []
  parked : e.rq.parked = []
  heat : e.heat.cur = none
  asked : e.cap.asked = none
  owner : e.learn.owner = none
  xsets : e.xsets = []
  aslots : e.aslots = []
  slow : e.lanes.slow = false
  held : e.sched.held = false
  streams : ∀ tc, (ten e tc).streams = []
  deadlines : ∀ tc, (ten e tc).dl = { late := 0, fbk := 0, risk := 0 }
  settled : ∀ tc, (ten e tc).st = .free ∨ (ten e tc).st = .opened

namespace Bare

variable {e : Engine}

/-- Registers, the free counter and the rest of the schedule play no part in it. -/
theorem of_frame (h : Bare e) (c : SchedSt) (hheld : c.held = false) (r : Table U64) (k : Nat) :
    Bare { e with sched := c, regs := r, free := k } :=
  { slots := h.slots, parked := h.parked, heat := h.heat, asked := h.asked, owner := h.owner, xsets := h.xsets,
    aslots := h.aslots, slow := h.slow, held := hheld, streams := h.streams, deadlines := h.deadlines,
    settled := h.settled }

theorem of_bumpOpen (h : Bare e) (off hi lo n : Nat) : Bare (bumpOpen off hi lo n e) := by
  obtain ⟨r, k, hb⟩ := bumpOpen_frame off hi lo n e
  rw [hb]
  exact h.of_frame _ h.held r k

theorem of_unwait (h : Bare e) : Bare (unwait e) := h.of_frame (unwait e).sched rfl _ _

theorem of_taken (h : Bare e) (ds : List Duty) : Bare (taken e ds) := h.of_frame (taken e ds).sched h.held _ _

theorem heatBusy_eq (h : Bare e) : heatBusy e = false := by simp [heatBusy, h.heat]

theorem heatFinish_eq (h : Bare e) : heatFinish e = e := by simp [heatFinish, h.heat]

theorem learnSteps_eq (h : Bare e) : learnSteps e = e := by simp [learnSteps, h.owner]

theorem learning_eq (h : Bare e) : learning e = false := by simp [learning, h.owner]

theorem xsetsFree_eq (h : Bare e) : xsetsFree e = e := by
  have same : { e with xsets := [] } = e := by rw [← h.xsets]
  simp [xsetsFree, h.xsets, same]

theorem freeRetired_eq (h : Bare e) : freeRetired e = e := by
  have same : { e with aslots := [] } = e := by rw [← h.aslots]
  simp [freeRetired, h.aslots, same]

theorem tenantBoundary_eq (h : Bare e) (tc : Nat) : tenantBoundary tc e = e := by
  unfold tenantBoundary
  split
  · rfl
  · rcases h.settled tc with hst | hst <;> rw [hst]

theorem streamsFree_eq (h : Bare e) (tc : Nat) : streamsFree tc e = e := by simp [streamsFree, h.streams]

theorem slowIrq_eq (h : Bare e) : slowIrq e = e := by simp [slowIrq, h.slow]

theorem holdHeat_eq (h : Bare e) : holdHeat e = e := by
  have irqs : dlIrqs e = e := dlIrqs_noEvents h.deadlines
  have same : { e with heat := { e.heat with cur := none } } = e := by rw [← h.heat]
  simp only [holdHeat, h.heatBusy_eq, Bool.false_eq_true, if_false, same, irqs, updateWaits_noSlots h.slots]

theorem boundaryFirst_eq (h : Bare e) : boundaryFirst e = bumpOpen rVAR_ASTAT 31 0 0 (unwait e) := by
  have hw := h.of_unwait
  have hb := hw.of_bumpOpen rVAR_ASTAT 31 0 0
  simp only [boundaryFirst, modSched_unwait, h.held, Bool.false_eq_true, if_false, hw.heatFinish_eq,
    draftsOff_noSlots hw.slots, repins_noReqs hw.slots hw.parked, hb.slots, tkeys_nil, List.foldl_nil, hb.heatBusy_eq,
    hb.learnSteps_eq]

theorem genHeat_eq (h : Bare e) : genHeat [] e = emitHeat (emptyHeat e) e := by
  obtain ⟨hs, p, t, r, k, c, m, hissue, -⟩ := emitHeat_frame (emptyHeat e) e
  have irqs : dlIrqs (emitHeat (emptyHeat e) e) = emitHeat (emptyHeat e) e :=
    dlIrqs_noEvents (by rw [hissue]; exact h.deadlines)
  have noSlots : (emitHeat (emptyHeat e) e).rq.slots = [] := by rw [hissue]; exact h.slots
  simp only [genHeat, fallbacks, List.foldl_nil, candidates_noSlots h.slots, choosePlan_nil, List.filter_nil,
    List.map_nil, Fill.empty, advanceVt]
  change markHeld [] (updateWaits [] (dlIrqs (emitHeat (emptyHeat e) e))) = _
  rw [irqs, updateWaits_noSlots noSlots, markHeld_noSlots noSlots]

/-- The rest of a boundary counts the requests at risk, none of them, and comes to its heat. -/
theorem boundaryRest_eq (h : Bare e) : boundaryRest e = laneSnap (bareHeat (bumpOpen rRQT_DL_RISK 31 0 0 e)) := by
  have hb := h.of_bumpOpen rRQT_DL_RISK 31 0 0
  have contexts : (tenants e).foldl (fun e tc => tenantBoundary tc e) e = e := foldl_unchanged h.tenantBoundary_eq _
  have streams : (tenants e).foldl (fun e tc => streamsFree tc e) e = e := foldl_unchanged h.streamsFree_eq _
  unfold boundaryRest
  simp only [holdsEnd_noReqs h.slots h.parked, h.xsetsFree_eq, contexts, h.freeRetired_eq, streams, h.slots, tkeys_nil,
    List.foldl_nil, slotOffers_noParked h.parked, h.slowIrq_eq, lateRules_noReqs h.slots h.parked,
    project_noSlots h.slots, countStale_noReqs hb.slots hb.parked, hb.holdHeat_eq, hb.learning_eq, hb.genHeat_eq]
  rfl

theorem boundaryRun_eq (h : Bare e) : boundaryRun e = laneSnap (bareHeat
    (bumpOpen rRQT_DL_RISK 31 0 0 (bumpOpen rVAR_ASTAT 31 0 0 (unwait e)))) := by
  have hb := h.of_unwait.of_bumpOpen rVAR_ASTAT 31 0 0
  simp [boundaryRun, h.boundaryFirst_eq, hb.asked, hb.boundaryRest_eq]

/-- No heat, command or walk holds the boundary. -/
theorem boundaryReady_eq (h : Bare e) (hacc : ∀ tc, (ten e tc).ring.accepted = []) : boundaryReady e = true := by
  simp [boundaryReady, h.heatBusy_eq, hacc, h.slots]

end Bare

/-! ## The row -/

/-- A duty that is the next of its stride, and need not wait, is the one its row runs. -/
theorem opDuty_next {e : Engine} {d : Duty} {ds : List Duty} (hnext : Next e d ds) (hbusy : e.cap.busy = false)
    (hwait : (d == .boundary && !inHold e && decide (e.pwr.eng < 2) && !boundaryReady e) = false) :
    opDuty d e = dutyRun d (taken e ds) := by
  have hagenda : e.sched.agenda = d :: ds := hnext
  unfold opDuty
  rw [if_pos (by simp [hagenda]), runDuties, hagenda]
  simp only [hbusy, hwait, Bool.or_false, Bool.false_eq_true, if_false, if_true]
  rfl

/-- A boundary that is due and need not wait is the one duty its row runs. -/
theorem exec_boundary_due {s : State} {ds : List Duty} (hs : Strides s) (hnext : Next s.eng .boundary ds)
    (hrest : .boundaryRest ∉ ds) (hgo : 2 ≤ s.eng.pwr.eng ∨ boundaryReady s.eng = true) :
    exec .boundary s = goes s (dutyRun .boundary (taken s.eng ds)) := by
  obtain ⟨⟨hup, hfree⟩, hdeep⟩ := hs
  obtain ⟨hbusy, -⟩ := frozen_eq_false.1 hfree
  have hagenda : s.eng.sched.agenda = .boundary :: ds := hnext
  have noRest : s.eng.sched.agenda.contains .boundaryRest = false := by simp [hagenda, hrest]
  have hduty : opBoundary s.eng = dutyRun .boundary (taken s.eng ds) := by
    unfold opBoundary
    rw [noRest]
    refine opDuty_next hnext hbusy ?_
    rcases hgo with h | h
    · simp [Nat.not_lt.2 h]
    · simp [h]
  change onEng (capGate .boundary (strideWork opBoundary)) s = _
  rw [onEng_up hup, capGate_free hfree, strideWork_open hdeep, hduty]
  rfl

/-- In RUN and STOP the boundary of a bare engine comes to its heat. -/
theorem exec_boundary_bare {s : State} {ds : List Duty} (hs : Strides s) (hnext : Next s.eng .boundary ds)
    (hrest : .boundaryRest ∉ ds) (hpwr : s.eng.pwr.eng < 2) (hbare : Bare s.eng)
    (hacc : ∀ tc, (ten s.eng tc).ring.accepted = []) :
    ∃ r k, exec .boundary s
      = goes s (laneSnap (bareHeat { unwait (taken s.eng ds) with regs := r, free := k })) := by
  obtain ⟨_, _, h1⟩ := bumpOpen_frame rVAR_ASTAT 31 0 0 (unwait (taken s.eng ds))
  obtain ⟨r, k, h2⟩ := bumpOpen_frame rRQT_DL_RISK 31 0 0 (bumpOpen rVAR_ASTAT 31 0 0 (unwait (taken s.eng ds)))
  refine ⟨r, k, ?_⟩
  have hrun : dutyRun .boundary (taken s.eng ds) = boundaryRun (taken s.eng ds) := if_neg (Nat.not_le.2 hpwr)
  rw [exec_boundary_due hs hnext hrest (.inr (hbare.boundaryReady_eq hacc)), hrun,
    (hbare.of_taken ds).boundaryRun_eq, h2, h1]

/-- Settles O40: a plain stride has no hold to end, and a bare boundary comes to its heat, none in HOLD and the empty
one otherwise. -/
theorem boundariesIssueHeats : Obligations.BoundariesIssueHeats := by
  unfold Obligations.BoundariesIssueHeats
  intro s ds hs hnext hrest e e1 bare hslots hparked
  have runs (h : bare) : ∃ r k, exec .boundary s
      = goes s (laneSnap (bareHeat { unwait (taken e ds) with regs := r, free := k })) := by
    obtain ⟨hpwr, hheat, hasked, howner, hxsets, haslots, hslow, hheld, hten⟩ := h
    refine exec_boundary_bare hs hnext hrest hpwr ?_ fun tc => (hten tc).1
    exact { slots := hslots, parked := hparked, heat := hheat, asked := hasked, owner := howner, xsets := hxsets,
            aslots := haslots, slow := hslow, held := hheld, streams := fun tc => (hten tc).2.1,
            deadlines := fun tc => (hten tc).2.2.1, settled := fun tc => (hten tc).2.2.2 }
  refine ⟨fun hidle => ?_, fun hhold hbare => ?_, fun hhold hbare => ?_⟩
  · have plain : dutyRun .boundary (taken e ds) = e1 :=
      (if_pos hidle).trans (holdsEnd_noReqs (e := e1) hslots hparked _ _)
    rw [exec_boundary_due hs hnext hrest (.inl hidle), plain]
  · obtain ⟨r, k, hexec⟩ := runs hbare
    let e2 := { unwait (taken e ds) with regs := r, free := k }
    have noHeat : bareHeat e2 = e2 := if_pos hhold
    rw [noHeat] at hexec
    exact ⟨_, hexec, rfl, rfl, rfl, rfl, rfl, rfl, rfl, rfl, rfl⟩
  · obtain ⟨r, k, hexec⟩ := runs hbare
    let e2 := { unwait (taken e ds) with regs := r, free := k }
    have aHeat : bareHeat e2 = emitHeat (emptyHeat e2) e2 := if_neg (Bool.eq_false_iff.1 hhold)
    obtain ⟨hs, p, t, r, k, c, m, hissue, hcur, hcount⟩ := emitHeat_frame (emptyHeat e2) e2
    rw [aHeat, hissue] at hexec
    exact ⟨_, _, hexec, rfl, hcur, hcount, rfl, rfl, rfl, rfl, rfl, rfl, rfl, rfl, rfl, rfl, rfl, rfl, rfl, rfl⟩

end Sys2Proof.Proofs

/-! # Logits blocks on a drain port (R136-R149, R292, R422) -/

namespace Sys2Proof.Proofs

open Sys2Proof Sys2Proof.Machine Sys2Proof.Certs Sys2Proof.Laws

/-! ## Straining and accumulating read nothing of the engine but its memory -/

section Memory

variable {e e' : Engine} (hmem : e.mem = e'.mem)
include hmem

theorem rdN_congr_mem (a n : Nat) : rdN e a n = rdN e' a n := by simp [rdN, rd, hmem]

theorem maskAllows_congr_mem : maskAllows e = maskAllows e' := by
  funext addr nbytes i
  simp only [maskAllows, hmem]

theorem adjGo_congr_mem : adjGo e = adjGo e' := by
  funext addr i n k x
  induction n generalizing k x with
  | zero => rfl
  | succ n ih => simp only [adjGo, rdN_congr_mem hmem, ih]

theorem strain_congr_mem (r : HRow) (win : List U24) (i : Nat) (x : U32) : strain e r win i x = strain e' r win i x := by
  unfold strain
  rw [maskAllows_congr_mem hmem, adjGo_congr_mem hmem]

theorem accOne_congr_mem (r : HRow) (cfg : AccCfg) (i : Nat) (x : U32) (p : Part) :
    accOne e r cfg i x p = accOne e' r cfg i x p := by
  simp only [accOne, strain_congr_mem hmem]

theorem accGo_congr_mem (r : HRow) (cfg : AccCfg) (fmt : Nat) (pl : List Byte) (n v : Nat) (p : Part) :
    accGo e r cfg fmt pl n v p = accGo e' r cfg fmt pl n v p := by
  induction n generalizing pl v p with
  | zero => rfl
  | succ n ih => simp only [accGo, accOne_congr_mem hmem, ih]

end Memory

/-! ## The heat computing and its streams -/

theorem modHeat_cur {e : Engine} {h : Heat} (f : Heat → Heat) (hcur : e.heat.cur = some h) :
    modHeat f e = { e with heat := { e.heat with cur := some (f h) } } := by simp [modHeat, hcur]

theorem modHeat_unchanged {e : Engine} {f : Heat → Heat} (hf : ∀ h, e.heat.cur = some h → f h = h) : modHeat f e = e := by
  have same : e.heat.cur.map f = e.heat.cur := by
    cases hcur : e.heat.cur with
    | none => rfl
    | some h => simp [hf h hcur]
  rw [modHeat, same]

theorem streamAt_row_pair (h : Heat) (row pair : Nat) :
    (streamAt h row pair).row = row ∧ (streamAt h row pair).pair = pair := by
  unfold streamAt
  cases hf : h.streams.find? (fun s => s.row == row && s.pair == pair) with
  | none => exact ⟨rfl, rfl⟩
  | some st => simpa using List.find?_some hf

theorem stream_put_row_pair (st : Stream) (q : Nat) (x : QStream) :
    (st.put q x).row = st.row ∧ (st.put q x).pair = st.pair := by
  unfold Stream.put
  split <;> exact ⟨rfl, rfl⟩

/-- One port's part put into a stream of the heat replaces that stream and no other. -/
theorem setStream_put {e : Engine} {h : Heat} (hcur : e.heat.cur = some h) (row pair q : Nat) (x : QStream) :
    setStream ((streamAt h row pair).put q x) e = { e with heat := { e.heat with cur := some { h with
      streams := h.streams.filter (fun x => x.row != row || x.pair != pair)
        ++ [(streamAt h row pair).put q x] } } } := by
  obtain ⟨hrow, hpair⟩ := streamAt_row_pair h row pair
  obtain ⟨hrow', hpair'⟩ := stream_put_row_pair (streamAt h row pair) q x
  rw [setStream, modHeat_cur _ hcur, hrow', hpair', hrow, hpair]

/-! ## What a block counts -/

/-- The counts of a block of tenant `tc` of whose values `nan` were NaN (R143, R365). -/
def blockCounts (tc nan : Nat) (e : Engine) : Engine :=
  tcount tc 4 1024 (if nan = 0 then e else count 2 10 nan (bumpOpen rSPR_VALUES 63 32 nan e))

theorem blockCounts_frame (tc nan : Nat) (e : Engine) :
    ∃ r k c, blockCounts tc nan e = { e with regs := r, free := k, cnt := c } := by
  unfold blockCounts
  split
  · obtain ⟨c, hc⟩ := tcount_frame tc 4 1024 e
    exact ⟨_, _, c, hc⟩
  · obtain ⟨r, k, hb⟩ := bumpOpen_frame rSPR_VALUES 63 32 nan e
    rw [hb]
    obtain ⟨c, hc⟩ := count_frame 2 10 nan { e with regs := r, free := k }
    rw [hc]
    obtain ⟨c, hc⟩ := tcount_frame tc 4 1024 { e with regs := r, free := k, cnt := c }
    exact ⟨_, _, c, hc⟩

@[simp] theorem blockCounts_port (tc nan : Nat) (e : Engine) : (blockCounts tc nan e).port = e.port := by
  obtain ⟨_, _, _, h⟩ := blockCounts_frame tc nan e
  rw [h]

@[simp] theorem blockCounts_heat (tc nan : Nat) (e : Engine) : (blockCounts tc nan e).heat = e.heat := by
  obtain ⟨_, _, _, h⟩ := blockCounts_frame tc nan e
  rw [h]

theorem credited_bumpOpen (q : Quad) (o hi lo n : Nat) (e : Engine) :
    credited q (bumpOpen o hi lo n e) = bumpOpen o hi lo n (credited q e) := by
  unfold bumpOpen
  dsimp only
  split
  · exact (if_pos ‹_›).symm
  · exact (if_neg ‹_›).symm

theorem credited_count (q : Quad) (g i n : Nat) (e : Engine) :
    credited q (count g i n e) = count g i n (credited q e) := by
  unfold count
  split <;> rfl

theorem credited_tcount (q : Quad) (tc i n : Nat) (e : Engine) :
    credited q (tcount tc i n e) = tcount tc i n (credited q e) := by
  unfold tcount
  split <;> rfl

/-- What a block counts does not hang on the credits. -/
theorem credited_blockCounts (q : Quad) (tc nan : Nat) (e : Engine) :
    credited q (blockCounts tc nan e) = blockCounts tc nan (credited q e) := by
  unfold blockCounts
  rw [credited_tcount]
  split
  · rfl
  · rw [credited_count, credited_bumpOpen]

/-! ## What a discard leaves of the ports -/

/-- `e'` has the ports of `e`, but for the interrupt messages that wait. -/
def MsgsOnly (e e' : Engine) : Prop := ∃ m, e'.port = { e.port with msgs := m }

theorem MsgsOnly.of_port {e e' : Engine} (h : e'.port = e.port) : MsgsOnly e e' := ⟨_, h⟩

theorem MsgsOnly.trans {a b c : Engine} (h1 : MsgsOnly a b) (h2 : MsgsOnly b c) : MsgsOnly a c := by
  obtain ⟨_, h1⟩ := h1
  obtain ⟨m, h2⟩ := h2
  exact ⟨m, by rw [h2, h1]⟩

theorem bumpOpen_port (o hi lo n : Nat) (e : Engine) : (bumpOpen o hi lo n e).port = e.port := by
  obtain ⟨_, _, h⟩ := bumpOpen_frame o hi lo n e
  rw [h]

theorem count_port (g i n : Nat) (e : Engine) : (count g i n e).port = e.port := by
  obtain ⟨_, h⟩ := count_frame g i n e
  rw [h]

theorem tracePush_port (ty : Nat) (b : List Byte) (e : Engine) : (tracePush ty b e).port = e.port := by
  obtain ⟨_, _, _, h⟩ := tracePush_frame ty b e
  rw [h]

theorem raiseVec_msgs (v : VecId) (e : Engine) : MsgsOnly e (raiseVec v e) := by
  unfold raiseVec
  dsimp only
  split
  · exact .of_port rfl
  · split
    · exact .of_port rfl
    · exact ⟨_, rfl⟩

theorem faultIrq_msgs (c : FaultClass) (scope : Nat) (e : Engine) : MsgsOnly e (faultIrq c scope e) := by
  unfold faultIrq
  split
  · exact .of_port rfl
  · split
    · exact .of_port rfl
    · exact raiseVec_msgs _ _

theorem recExpire_port (c : FaultClass) (root : HAddr) (e : Engine) : (recExpire c root e).port = e.port :=
  List.foldlRecOn (motive := fun e' : Engine => e'.port = e.port) _ _ rfl
    fun _ h _ _ => (tracePush_port 5 _ _).trans h

theorem faultRecord_msgs (c : FaultClass) (tc : U8) (scope : Nat) (root reporter : HAddr) (detail : U64) (fstr : Stride)
    (e : Engine) : MsgsOnly e (faultRecord c tc scope root reporter detail fstr e) := by
  have expired := recExpire_port c root e
  unfold faultRecord
  dsimp only
  split
  · exact .of_port expired
  · split
    · exact .of_port expired
    · refine .trans (.of_port ?_) (faultIrq_msgs c scope _)
      rw [tracePush_port, bumpSat_port]
      split <;> exact expired

theorem faultContain_port (c : FaultClass) (tc : U8) (obj : FaultObj) (scope : Nat) (e : Engine) :
    (faultContain c tc obj scope e).port = e.port := by
  obtain ⟨_, _, h⟩ := faultContain_frame c tc obj scope e
  rw [h]

theorem drainFault_msgs (q : Quad) (tag : U64) (e : Engine) : MsgsOnly e (drainFault q tag e) := by
  let e1 := count 2 14 1 (bumpOpen rFLT_STAT 63 32 1 e)
  have counted : MsgsOnly e e1 := .of_port (by rw [count_port, bumpOpen_port])
  exact (counted.trans (faultRecord_msgs _ _ _ _ _ _ _ e1)).trans (.of_port (faultContain_port _ _ _ _ _))

/-- A block or word that is discarded changes no credit, no block that waits and no manifest port. -/
theorem discard_msgs (kind : Nat) (q : Quad) (tag : U64) (e : Engine) : MsgsOnly e (Machine.discard kind q tag e) := by
  unfold Machine.discard
  refine .trans (.of_port ?_) (drainFault_msgs q tag _)
  rw [count_port]
  split <;> exact bumpSat_port _ _ _ _ _

theorem bufOf_msgs {e e' : Engine} (h : MsgsOnly e e') (q : Nat) : bufOf e' q = bufOf e q := by
  obtain ⟨_, h⟩ := h
  simp only [bufOf, h]

theorem mpRoom_msgs {e e' : Engine} (h : MsgsOnly e e') (q : Nat) : mpRoom q e' = mpRoom q e := by
  obtain ⟨_, h⟩ := h
  have queue : mpOf e' q = mpOf e q := by simp only [mpOf, h]
  rw [mpRoom, mpRoom, queue]

/-! ## A port passes what waits to its lanes (R27, R292) -/

/-- With one tenant's blocks alone waiting, it is that tenant's turn. -/
theorem drrTurn_single (e : Engine) (q t : Nat) : (drrTurn e q [t]).1 = t := by
  have whichever (p : Nat → Bool) : ([t].find? p).getD ([t].headD 0) = t := by cases h : p t <;> simp [h]
  unfold drrTurn
  dsimp only
  split
  case h_1 u n _ =>
    split
    case isTrue hmine => simpa using (Bool.and_eq_true_iff.1 hmine).1
    case isFalse => exact whichever _
  case h_2 => rfl

theorem portDone_cur {e : Engine} {h : Heat} (hcur : e.heat.cur = some h) (q : Nat) :
    portDone e q = h.done.getLsbD q := by simp [portDone, hcur]

/-- The engine with `n` credits of drain port `q` at the host. -/
def withCredits (q : Quad) (n : Nat) (e : Engine) : Engine :=
  { e with port := { e.port with crd := tset e.port.crd q.toNat n } }

@[simp] theorem credited_withCredits (q : Quad) (n : Nat) (e : Engine) : credited q (withCredits q n e) = credited q e := by
  simp [credited, withCredits]

theorem bufOf_withCredits (q : Quad) (n : Nat) (e : Engine) (k : Nat) : bufOf (withCredits q n e) k = bufOf e k := rfl

theorem mpRoom_withCredits (q : Quad) (n : Nat) (e : Engine) (k : Nat) : mpRoom k (withCredits q n e) = mpRoom k e := rfl

/-- The engine once port `q` has passed the one block that waits on it, a block of tenant `tc`, in that tenant's turn. -/
def turnTaken (q tc : Nat) (e : Engine) : Engine :=
  let turn := drrTurn e q [tc]
  { e with port := { e.port with drr := tset e.port.drr q (turn.1, turn.2 - 1), buf := tdel e.port.buf q } }

/-- Once the block is passed and its credit back, only the turn tells that it waited. -/
theorem credited_turnTaken (q : Quad) (tc n : Nat) (x : U64 × List Byte) (e : Engine) :
    credited q (turnTaken q.toNat tc (withCredits q n (setBuf q.toNat [x] e))) = turnTaken q.toNat tc (credited q e) := by
  have turn : drrTurn (withCredits q n (setBuf q.toNat [x] e)) q.toNat [tc] = drrTurn (credited q e) q.toNat [tc] := rfl
  simp only [turnTaken, turn]
  simp [credited, withCredits, setBuf]

/-- The one block that waits goes to its lane. -/
theorem passOne_single {e : Engine} {q : Quad} {tag : U64} {pl : List Byte} (hbuf : bufOf e q.toNat = [(tag, pl)]) :
    passOne q.toNat e = logitsAccept q tag pl (turnTaken q.toNat (blkTenant e tag) e) := by
  have turn := drrTurn_single e q.toNat (blkTenant e tag)
  simp [passOne, hbuf, ninsert, turn, setBuf, turnTaken]

theorem drainPass_empty {e : Engine} {q : Quad} (hroom : mpRoom q.toNat e = true) (hbuf : bufOf e q.toNat = []) :
    drainPass q.toNat e = credited q e := by
  simp [drainPass, hroom, hbuf, passGo, credited]

/-- A port that is not done passes its one block and has every credit back. -/
theorem drainPass_single {e : Engine} {q : Quad} {x : U64 × List Byte} (hroom : mpRoom q.toNat e = true)
    (hbuf : bufOf e q.toNat = [x]) (hempty : bufOf (passOne q.toNat e) q.toNat = [])
    (hdone : portDone (passOne q.toNat e) q.toNat = false) :
    drainPass q.toNat e = credited q (passOne q.toNat e) := by
  have passed : passGo (mpRoom q.toNat) q.toNat 1 e = passOne q.toNat e := by
    simp only [passGo, hbuf, hroom, hempty, List.isEmpty_cons, List.isEmpty_nil, Bool.not_true, Bool.or_self,
      Bool.false_eq_true, if_false]
    refine modHeat_unchanged fun h hcur => ?_
    rw [portDone_cur hcur] at hdone
    simp [hdone]
  simp [drainPass, hroom, hbuf, passed, hempty, hdone, credited]

/-! ## The lane that takes a block -/

section Lane

variable {e : Engine} {q : Quad} {tag : U64} {pl : List Byte} {h : Heat} {r : HRow}

/-- What port `q` has accumulated of the PAIR 0 stream of a block's row. -/
def heldPart (q : Quad) (tag : U64) (h : Heat) : Part := ((streamAt h (bits tag 45 32) 0).at q.toNat).part

/-- The same with the block's own values. -/
def grownPart (e : Engine) (q : Quad) (tag : U64) (pl : List Byte) (h : Heat) (r : HRow) : Part :=
  accGo e r (accCfg e h r 0) (bits tag 57 55) pl (bits tag 11 1) (bits tag 31 12) (heldPart q tag h)

theorem grownPart_congr_mem {e' : Engine} (hmem : e.mem = e'.mem) : grownPart e q tag pl h r = grownPart e' q tag pl h r :=
  accGo_congr_mem hmem _ _ _ _ _ _ _

/-- The engine with `p` as what port `q` has of the stream of a block's row `r`, and the block counted. -/
def accumulated (q : Quad) (tag : U64) (h : Heat) (r : HRow) (p : Part) (e : Engine) : Engine :=
  blockCounts r.tc (p.nNan - (heldPart q tag h).nNan)
    (setStream ((streamAt h (bits tag 45 32) 0).put q.toNat { seen := true, last := false, part := p }) e)

theorem accumulated_port (p : Part) : (accumulated q tag h r p e).port = e.port := blockCounts_port _ _ _

theorem portDone_accumulated (p : Part) (k : Nat) : portDone (accumulated q tag h r p e) k = portDone e k := by
  unfold portDone accumulated
  rw [blockCounts_heat]
  cases hcur : e.heat.cur <;> simp [setStream, modHeat, hcur]

theorem credited_accumulated (p : Part) (k : Quad) :
    credited k (accumulated q tag h r p e) = accumulated q tag h r p (credited k e) := credited_blockCounts _ _ _ _

/-- A PAIR 0 block that is not the last of its stream is accumulated into it and counted. -/
theorem logitsAccept_notLast (hpair : bits tag 59 58 = 0) (hcur : e.heat.cur = some h)
    (hrow : rowAt h (bits tag 45 32) = some r) (hlast : bit tag 54 = false) :
    logitsAccept q tag pl e = accumulated q tag h r (grownPart e q tag pl h r) e := by
  simp only [logitsAccept, hpair, hcur, hrow, hlast, Bool.not_false, if_true]
  rfl

/-- The lanes of a port that is not done take the one block that waits. -/
theorem drainPass_accumulates (hpair : bits tag 59 58 = 0) (hcur : e.heat.cur = some h)
    (hrow : rowAt h (bits tag 45 32) = some r) (hlast : bit tag 54 = false)
    (hdone : h.done.getLsbD q.toNat = false) (hroom : mpRoom q.toNat e = true) (hbuf : bufOf e q.toNat = [(tag, pl)]) :
    drainPass q.toNat e
      = accumulated q tag h r (grownPart e q tag pl h r) (credited q (turnTaken q.toNat r.tc e)) := by
  have htc : blkTenant e tag = r.tc := by simp [blkTenant, hcur, hrow]
  have hcur' : (turnTaken q.toNat r.tc e).heat.cur = some h := hcur
  have hmem : (turnTaken q.toNat r.tc e).mem = e.mem := rfl
  have passed : passOne q.toNat e
      = accumulated q tag h r (grownPart e q tag pl h r) (turnTaken q.toNat r.tc e) := by
    rw [passOne_single hbuf, htc, logitsAccept_notLast hpair hcur' hrow hlast, grownPart_congr_mem hmem]
  have empty : bufOf (passOne q.toNat e) q.toNat = [] := by
    rw [passed, bufOf, accumulated_port]
    exact tget_tdel_self _ _ _
  have notDone : portDone (passOne q.toNat e) q.toNat = false := by
    rw [passed, portDone_accumulated, portDone_cur hcur', hdone]
  rw [drainPass_single hroom hbuf empty notDone, passed, credited_accumulated]

end Lane

/-! ## Intake -/

theorem exec_logitsBlock_free {s : State} (hs : Free s) (q : Quad) (tag : U64) (pl : List Byte) :
    exec (.logitsBlock q tag pl) s = goes s (drainIn q tag pl s.eng) := by
  obtain ⟨hup, hfree⟩ := hs
  change onEng (capGate _ (drainIn q tag pl)) s = _
  rw [onEng_up hup, capGate_free hfree]
  rfl

/-- The heat that has seen a PAIR 0 block on port `q` (R172). -/
def blockSeen (q : Quad) (tag : U64) (h : Heat) : Heat :=
  { h with prevBlk := tset h.prevBlk q.toNat (bits tag 45 32, bits tag 31 12, bits tag 11 1) }

/-- The engine with `h` as the heat computing. -/
def withHeat (h : Heat) (e : Engine) : Engine := { e with heat := { e.heat with cur := some h } }

/-- The word is a PAIR 0 logits block whose format, count and reserved bit are in order (R136). -/
structure WellFormed0 (tag : U64) : Prop where
  type : bits tag 63 60 = 1
  pair : bits tag 59 58 = 0
  format : bits tag 57 55 ≤ 4
  reserved : bit tag 0 = false
  some : 1 ≤ bits tag 11 1
  fits : bits tag 11 1 ≤ nvMax (bits tag 57 55)

section Block

variable {e : Engine} {q : Quad} {tag : U64} {h : Heat} (hwf : WellFormed0 tag)
include hwf

/-- A port with a credit spends it on the block, and then passes what waits. -/
theorem drainIn_pair0 (pl : List Byte) (hopen : DrainOpen e q) (hcur : e.heat.cur = some h) :
    ∃ prev n, drainIn q tag pl e
      = drainPass q.toNat (withCredits q n (logitsIn q tag pl prev (withHeat (blockSeen q tag h) e))) := by
  obtain ⟨hcrd, -, -⟩ := hopen
  refine ⟨tget? h.prevBlk q.toNat, tget 128 e.port.crd q.toNat - 1, ?_⟩
  have noted : modHeat (blockSeen q tag) e = withHeat (blockSeen q tag h) e := modHeat_cur _ hcur
  simp only [drainIn, hcrd, if_false, hcur, hwf.type, hwf.pair, and_self, if_true]
  change drainPass q.toNat (withCredits q _ (logitsIn q tag pl _ (modHeat (blockSeen q tag) e))) = _
  rw [noted]

theorem not_malformed : ¬ (4 < bits tag 57 55 ∨ bits tag 59 58 = 3 ∨ bits tag 11 1 = 0
    ∨ nvMax (bits tag 57 55) < bits tag 11 1 ∨ bit tag 0 = true) := by
  obtain ⟨-, hpair, hformat, hreserved, hsome, hfits⟩ := hwf
  simp only [hreserved, Bool.false_eq_true, or_false]
  omega

/-- R422: a block of another heat than the one computing is STRAY. -/
theorem logitsVerdict_otherHeat (hcur : e.heat.cur = some h) (hheat : bits tag 53 46 ≠ heat8 h)
    (prev : Option (Nat × Nat × Nat)) : logitsVerdict e q tag prev = some (0, false) := by
  unfold logitsVerdict
  rw [if_neg (not_malformed hwf), hcur]
  exact if_pos (.inl hheat)

/-- R422: a PAIR 0 block of the heat computing for a row that awaits its values, of which the stream has room, passes. -/
theorem logitsVerdict_pair0 {r : HRow} (hcur : e.heat.cur = some h) (hheat : bits tag 53 46 = heat8 h)
    (hn : bits tag 45 32 < h.nrows) (hrow : rowAt h (bits tag 45 32) = some r) (hlogits : r.logits = true)
    (hvocab : bits tag 31 12 + bits tag 11 1 ≤ h.vocab) (hbuf : bufOf e q.toNat = [])
    (hlast : ((streamAt h (bits tag 45 32) 0).at q.toNat).last = false) (hdone : h.done.getLsbD q.toNat = false)
    (hroom : ((streamAt h (bits tag 45 32) 0).at q.toNat).part.count + bits tag 11 1 ≤ h.vocab)
    (prev : Option (Nat × Nat × Nat)) : logitsVerdict e q tag prev = none := by
  have noneWait : waitingOf e q.toNat (bits tag 45 32) 0 = [] := by simp [waitingOf, hbuf]
  unfold logitsVerdict
  rw [if_neg (not_malformed hwf), hcur]
  simp [hheat, Nat.not_le.2 hn, hrow, hlogits, Nat.not_lt.2 hvocab, hwf.pair, noneWait, hlast, hdone,
    Nat.not_lt.2 hroom]

/-- A STRAY block is discarded, and its credit is back. -/
theorem drainIn_otherHeat (pl : List Byte) (hopen : DrainOpen e q) (hcur : e.heat.cur = some h)
    (hheat : bits tag 53 46 ≠ heat8 h) :
    drainIn q tag pl e = credited q (Machine.discard 0 q tag (withHeat (blockSeen q tag h) e)) := by
  obtain ⟨prev, n, hin⟩ := drainIn_pair0 hwf pl hopen hcur
  obtain ⟨-, hbuf, hroom⟩ := hopen
  have verdict : logitsVerdict (withHeat (blockSeen q tag h) e) q tag prev = some (0, false) :=
    logitsVerdict_otherHeat (h := blockSeen q tag h) hwf rfl hheat prev
  have stray : logitsIn q tag pl prev (withHeat (blockSeen q tag h) e)
      = Machine.discard 0 q tag (withHeat (blockSeen q tag h) e) := by simp [logitsIn, verdict]
  have ports := discard_msgs 0 q tag (withHeat (blockSeen q tag h) e)
  have room := (mpRoom_msgs ports q.toNat).trans (decide_eq_true hroom)
  have empty := (bufOf_msgs ports q.toNat).trans hbuf
  rw [hin, stray, drainPass_empty ((mpRoom_withCredits ..).trans room) ((bufOf_withCredits ..).trans empty),
    credited_withCredits]

/-- A block that passes every check is accumulated at once: nothing else waits on its port. -/
theorem drainIn_accepted (pl : List Byte) {r : HRow} (hopen : DrainOpen e q) (hcur : e.heat.cur = some h)
    (hrow : rowAt h (bits tag 45 32) = some r) (hdone : h.done.getLsbD q.toNat = false) (hlast : bit tag 54 = false)
    (hverdict : ∀ prev, logitsVerdict (withHeat (blockSeen q tag h) e) q tag prev = none) :
    drainIn q tag pl e = accumulated q tag (blockSeen q tag h) r (grownPart e q tag pl (blockSeen q tag h) r)
      (turnTaken q.toNat r.tc (credited q (withHeat (blockSeen q tag h) e))) := by
  obtain ⟨prev, n, hin⟩ := drainIn_pair0 hwf pl hopen hcur
  obtain ⟨-, hbuf, hroom⟩ := hopen
  generalize he0 : withHeat (blockSeen q tag h) e = e0 at hin hverdict ⊢
  have hbuf0 : bufOf e0 q.toNat = [] := he0 ▸ hbuf
  have accepted : logitsIn q tag pl prev e0 = setBuf q.toNat [(tag, pl)] e0 := by
    simp [logitsIn, hverdict prev, hbuf0]
  have waits : bufOf (withCredits q n (setBuf q.toNat [(tag, pl)] e0)) q.toNat = [(tag, pl)] := by
    simp [bufOf, withCredits, setBuf]
  have room : mpRoom q.toNat (withCredits q n (setBuf q.toNat [(tag, pl)] e0)) = true :=
    he0 ▸ decide_eq_true hroom
  have hcur0 : (withCredits q n (setBuf q.toNat [(tag, pl)] e0)).heat.cur = some (blockSeen q tag h) := he0 ▸ rfl
  have hmem : (withCredits q n (setBuf q.toNat [(tag, pl)] e0)).mem = e.mem := he0 ▸ rfl
  rw [hin, accepted, drainPass_accumulates hwf.pair hcur0 hrow hlast hdone room waits, credited_turnTaken,
    grownPart_congr_mem hmem]

end Block

/-! ## The obligation -/

/-- Settles O44: a block of another heat is STRAY by the first check of R422 that looks at the heat; one that passes every
check is the only one that waits, and its lane accumulates it at once. -/
theorem logitsBlocksAccumulate : Obligations.LogitsBlocksAccumulate := by
  unfold Obligations.LogitsBlocksAccumulate
  intro s q tag pl h r hfree hopen hcur htype hpair hformat hreserved row vb nv hsome hfits h0 e0 e st
  have hwf : WellFormed0 tag := ⟨htype, hpair, hformat, hreserved, hsome, hfits⟩
  rw [exec_logitsBlock_free hfree]
  refine ⟨fun hheat hn hrow hlogits hvocab hunfinished hdone hroom hlast => ?_, fun hheat => ?_⟩
  · intro p nan turn e1
    have ⟨_, hbuf, _⟩ := hopen
    have accepts (prev) : logitsVerdict (withHeat (blockSeen q tag h) s.eng) q tag prev = none :=
      logitsVerdict_pair0 (e := withHeat (blockSeen q tag h) s.eng) (h := blockSeen q tag h) hwf rfl hheat hn hrow hlogits
        hvocab hbuf hunfinished hdone hroom prev
    have hmem : s.eng.mem = e.mem := rfl
    have hp : grownPart s.eng q tag pl (blockSeen q tag h) r = p := grownPart_congr_mem hmem
    have hcur0 : (turnTaken q.toNat r.tc (credited q (withHeat (blockSeen q tag h) s.eng))).heat.cur
        = some (blockSeen q tag h) := rfl
    rw [drainIn_accepted hwf pl hopen hcur hrow hdone hlast accepts, hp, accumulated, setStream_put hcur0]
    rfl
  · rw [drainIn_otherHeat hwf pl hopen hcur hheat]
    rfl

end Sys2Proof.Proofs

/-! # Requests, manifest ports and the draft store, as the work of a heat changes them (R24, R76, R163, R317) -/

namespace Sys2Proof.Proofs

open Sys2Proof Sys2Proof.Machine Sys2Proof.Certs Sys2Proof.Laws

/-! ## A request that holds a slot -/

/-- The request numbered `uid` holds `slot` and is `q`. -/
structure Seated (e : Engine) (uid slot : Nat) (q : Req) : Prop where
  byUid : reqByUid e uid = some (some slot, q)
  bySlot : reqAt e slot = some q

/-- The first entry that meets `p` stays the first when its number's entries are changed to what still meets it. -/
theorem find?_tmod {α : Type} {p : Nat × α → Bool} {n : Nat} {v : α} {f : α → α} (hp : p (n, f v) = true) {t : Table α}
    (hfind : t.find? p = some (n, v)) (hget : tget? t n = some v) : (tmod t n f).find? p = some (n, f v) := by
  induction t with
  | nil => cases hget
  | cons c t ih =>
    obtain ⟨k, x⟩ := c
    rw [List.find?_cons] at hfind
    rw [tget?_cons] at hget
    rw [tmod, List.map_cons, List.find?_cons]
    by_cases hk : k = n
    · obtain rfl : x = v := by simpa [hk] using hget
      simp [hk, hp]
    · cases hx : p (k, x) with
      | true => simp [hx, hk] at hfind
      | false =>
        simp only [hx] at hfind
        simp only [hk, if_false] at hget ⊢
        simp only [hx]
        exact ih hfind hget

namespace Seated

variable {e e' : Engine} {uid slot : Nat} {q : Req}

theorem of_rq (hq : Seated e uid slot q) (h : e'.rq = e.rq) : Seated e' uid slot q :=
  ⟨by simpa only [reqByUid, h] using hq.byUid, by simpa only [reqAt, h] using hq.bySlot⟩

theorem find (hq : Seated e uid slot q) : e.rq.slots.find? (fun p => p.2.w.uid == uid) = some (slot, q) := by
  have h := hq.byUid
  unfold reqByUid at h
  split at h
  · rename_i found
    simp only [Option.some.injEq, Prod.mk.injEq] at h
    obtain ⟨rfl, rfl⟩ := h
    exact found
  · simp at h

theorem uid_eq (hq : Seated e uid slot q) : q.w.uid = uid := by simpa using List.find?_some hq.find

/-- A request with a slot is changed there. -/
theorem modUid_eq (hq : Seated e uid slot q) (f : Req → Req) : modUid uid f e = modReq slot f e := by
  simp [modUid, hq.find]

theorem modUid (hq : Seated e uid slot q) {f : Req → Req} (hf : (f q).w.uid = uid) :
    Seated (Machine.modUid uid f e) uid slot (f q) := by
  have found := find?_tmod (p := fun p => p.2.w.uid == uid) (f := f) (by simpa using hf) hq.find hq.bySlot
  rw [hq.modUid_eq]
  refine ⟨?_, by simp [reqAt_modReq, hq.bySlot]⟩
  simp [reqByUid, modReq, found]

end Seated

/-! ## Units on a manifest port (R317) -/

theorem mpBeats_units (fuel : Nat) (p : MpPort) : (mpBeats fuel p).sent ++ (mpBeats fuel p).queue = p.sent ++ p.queue := by
  induction fuel generalizing p with
  | zero => rfl
  | succ fuel ih =>
    unfold mpBeats
    split
    · rfl
    · rw [ih, List.append_assoc, List.take_append_drop]

/-- Units pushed on a port come behind those there, whatever its credits let it send. -/
theorem unitsOf_mpPush (q : Nat) (us : List MpUnit) (e : Engine) : unitsOf (mpPush q us e) q = unitsOf e q ++ us := by
  unfold mpPush
  split
  · rename_i h
    simp [List.isEmpty_iff.1 h]
  · simp [unitsOf, mpFlush, mpBeats_units]

theorem mpRecords_plain (q : Nat) (rs : List (List Byte)) (e : Engine) :
    mpRecords q false rs e = mpPush q (rs.map recUnit) e := by simp [mpRecords]

/-! ## The draft store (R163) -/

/-- Keeping a draft takes 64 free values (log entry 118) and writes them as the 512 bytes of the slot's draft state. -/
theorem Seated.draftKeep_frame {e : Engine} {uid slot : Nat} {q : Req} (hq : Seated e uid slot q) :
    ∃ b, b.length = 512
      ∧ draftKeep uid e = { e with mem := memWrite e.mem (draftAt e slot) b, free := e.free + 64 } := by
  refine ⟨(List.range 64).flatMap fun i => le 8 (Config.unstated (e.free + i)).toNat, ?_, ?_⟩
  · have each : (List.range 64).map (fun i => (le 8 (Config.unstated (e.free + i)).toNat).length)
        = (List.range 64).map fun _ => 8 := by simp only [le_length]
    exact List.length_flatMap.trans ((congrArg List.sum each).trans rfl)
  · simp only [draftKeep, hq.byUid]
    rfl

/-! ## Counts -/

theorem reg_bumpOpen_other {o p : Nat} (h : p ≠ o) (hi lo n : Nat) (e : Engine) :
    reg (bumpOpen o hi lo n e) p = reg e p := by
  unfold bumpOpen
  dsimp only
  split
  · exact reg_setRegF_other e o p hi lo _ h
  · exact reg_setRegF_other e o p hi lo _ h

/-! ## Work on one request's draft -/

/-- `e'` comes from `e` by work on the request `uid`, which holds `slot` and is now `q`, and on the heat computing, now `h`:
`us` are the units that it put on manifest port `port`; of memory it wrote the slot's draft state at most, of the
registers SPR_SPEC_CNT at most. -/
structure DraftWork (e : Engine) (uid slot port : Nat) (e' : Engine) (q : Req) (h : Heat) (us : List MpUnit) : Prop where
  seat : Seated e' uid slot q
  others : ∀ k, k ≠ slot → reqAt e' k = reqAt e k
  cur : e'.heat.cur = some h
  time : e'.time = e.time
  regs : ∀ o, o ≠ rSPR_SPEC_CNT → reg e' o = reg e o
  wf : memWf e.mem = true → memWf e'.mem = true
  mem : memWf e.mem = true → ∀ a, a < draftAt e slot ∨ draftAt e slot + 512 ≤ a → memGet e'.mem a = memGet e.mem a
  units : unitsOf e' port = unitsOf e port ++ us

namespace DraftWork

variable {e e' e'' : Engine} {uid slot port : Nat} {q : Req} {h : Heat} {us : List MpUnit}

theorem start (hq : Seated e uid slot q) (hcur : e.heat.cur = some h) (port : Nat) :
    DraftWork e uid slot port e q h [] where
  seat := hq
  others _ _ := rfl
  cur := hcur
  time := rfl
  regs _ _ := rfl
  wf := id
  mem _ _ _ := rfl
  units := by simp

/-- A change of no more than the counters, the free counter and SPR_SPEC_CNT. -/
theorem tally (w : DraftWork e uid slot port e' q h us) {r : Table U64} {k : Nat} {c : Table U64}
    (he : e'' = { e' with regs := r, free := k, cnt := c }) (hr : ∀ o, o ≠ rSPR_SPEC_CNT → reg e'' o = reg e' o) :
    DraftWork e uid slot port e'' q h us := by
  subst he
  exact { seat := w.seat.of_rq rfl, others := w.others, cur := w.cur, time := w.time,
          regs := fun o ho => (hr o ho).trans (w.regs o ho), wf := w.wf, mem := w.mem, units := w.units }

theorem count (w : DraftWork e uid slot port e' q h us) (g i n : Nat) :
    DraftWork e uid slot port (Machine.count g i n e') q h us := by
  obtain ⟨c, hc⟩ := count_frame g i n e'
  exact w.tally hc fun o _ => by rw [hc]; rfl

theorem tcount (w : DraftWork e uid slot port e' q h us) (tc i n : Nat) :
    DraftWork e uid slot port (Machine.tcount tc i n e') q h us := by
  obtain ⟨c, hc⟩ := tcount_frame tc i n e'
  exact w.tally hc fun o _ => by rw [hc]; rfl

theorem bumpSpecCnt (w : DraftWork e uid slot port e' q h us) (hi lo n : Nat) :
    DraftWork e uid slot port (bumpOpen rSPR_SPEC_CNT hi lo n e') q h us := by
  obtain ⟨r, k, hb⟩ := bumpOpen_frame rSPR_SPEC_CNT hi lo n e'
  exact w.tally hb fun o ho => reg_bumpOpen_other ho hi lo n e'

theorem modUid (w : DraftWork e uid slot port e' q h us) {f : Req → Req} (hf : (f q).w.uid = uid) :
    DraftWork e uid slot port (Machine.modUid uid f e') (f q) h us := by
  have seat := w.seat.modUid hf
  rw [w.seat.modUid_eq] at seat ⊢
  exact { seat := seat, others := fun k hk => by rw [reqAt_modReq, if_neg hk, w.others k hk], cur := w.cur,
          time := w.time, regs := w.regs, wf := w.wf, mem := w.mem, units := w.units }

theorem modHeat (w : DraftWork e uid slot port e' q h us) (f : Heat → Heat) :
    DraftWork e uid slot port (Machine.modHeat f e') q (f h) us := by
  rw [modHeat_cur f w.cur]
  exact { seat := w.seat.of_rq rfl, others := w.others, cur := rfl, time := w.time, regs := w.regs, wf := w.wf,
          mem := w.mem, units := w.units }

theorem draftAt_eq (w : DraftWork e uid slot port e' q h us) : draftAt e' slot = draftAt e slot := by
  rw [draftAt, draftAt, w.regs rSPR_DRAFT_BASE (by simp [rSPR_DRAFT_BASE, rSPR_SPEC_CNT])]

theorem draftKeep (w : DraftWork e uid slot port e' q h us) :
    DraftWork e uid slot port (Machine.draftKeep uid e') q h us := by
  obtain ⟨b, hlen, hb⟩ := w.seat.draftKeep_frame
  rw [hb]
  refine { seat := w.seat.of_rq rfl, others := w.others, cur := w.cur, time := w.time, regs := w.regs,
           wf := fun hm => memWrite_wf _ _ _ (w.wf hm), mem := fun hm a ha => ?_, units := w.units }
  have outside : a < draftAt e' slot ∨ draftAt e' slot + b.length ≤ a := by rwa [w.draftAt_eq, hlen]
  exact (memGet_memWrite_outside _ _ _ _ (w.wf hm) outside).trans (w.mem hm a ha)

theorem mpRecords (w : DraftWork e uid slot port e' q h us) (rs : List (List Byte)) :
    DraftWork e uid slot port (Machine.mpRecords port false rs e') q h (us ++ rs.map recUnit) := by
  rw [mpRecords_plain]
  have units := unitsOf_mpPush port (rs.map recUnit) e'
  obtain ⟨m, hm⟩ := mpPush_frame port (rs.map recUnit) e'
  rw [hm] at units ⊢
  exact { seat := w.seat.of_rq rfl, others := w.others, cur := w.cur, time := w.time, regs := w.regs, wf := w.wf,
          mem := w.mem, units := by rw [units, w.units, List.append_assoc] }

end DraftWork

end Sys2Proof.Proofs

/-! # Judging, and draft rounds (R140, R163-R170, R182) -/

namespace Sys2Proof.Proofs

open Sys2Proof Sys2Proof.Machine Sys2Proof.Certs Sys2Proof.Laws

/-! ## Judging while done markers are missing (R140, R182) -/

theorem homeQ_lt (row : Nat) : homeQ row < 4 := Nat.mod_lt _ (by decide)

/-- A row or item none of whose home quadrants holds every done marker is not judged. -/
theorem judgeRow_noMarkers {e : Engine} {h : Heat} {r : HRow} (hcur : e.heat.cur = some h)
    (hmark : ∀ q < 4, allMarkers h q = false) (hlead : isVerify r = true → r ∈ itemRows h r) : judgeRow r e = e := by
  have mine : r ∈ if isVerify r then itemRows h r else [r] := by
    split
    · exact hlead ‹_›
    · exact List.mem_singleton_self r
  have wait : ((if isVerify r then itemRows h r else [r]).all fun x => allMarkers h (homeQ x.row)) = false :=
    List.all_eq_false.2 ⟨r, mine, by simp [hmark _ (homeQ_lt r.row)]⟩
  simp [judgeRow, hcur, wait]

theorem judge_noMarkers {e : Engine} {h : Heat} (hcur : e.heat.cur = some h) (hmark : ∀ q < 4, allMarkers h q = false)
    (hlead : ∀ r ∈ h.rows, isVerify r = true → r.lead = r.row) : judge e = e := by
  have unjudged (r) (hr : r ∈ h.rows) : judgeRow r e = e :=
    judgeRow_noMarkers hcur hmark fun hv => List.mem_filter.2 ⟨hr, by simpa using hlead r hr hv⟩
  simp only [judge, hcur]
  exact List.foldlRecOn (motive := (· = e)) h.rows _ rfl fun _ he r hr => by rw [he, unjudged r hr]

theorem judge_noJudgement {e : Engine} {h : Heat} (hcur : e.heat.cur = some h) (hj : NoJudgement h) : judge e = e := by
  obtain ⟨hkind, hmark⟩ := hj
  refine judge_noMarkers hcur hmark fun r hr hv => ?_
  have low := hkind r hr
  simp only [isVerify, Bool.or_eq_true, beq_iff_eq] at hv
  omega

/-! ## DRAFT_ROUND (R166, R168) -/

theorem exec_draftRound_free {s : State} (hs : Free s) (slot : U16) :
    exec (.draftRound slot) s = goes s (opDraftRound slot.toNat s.eng) := by
  obtain ⟨hup, hfree⟩ := hs
  change onEng (capGate _ (opDraftRound slot.toNat)) s = _
  rw [onEng_up hup, capGate_free hfree]
  rfl

/-- R168: a GREEDY request draws one child, the index of largest z. -/
theorem drawChildren_greedy {q : Req} {p : Part} {c : Cand} (key : U128) (n k : Nat) (hg : q.d.greedy = true)
    (hs : p.accS ≠ 0) (hz : p.maxZ = some c) :
    drawChildren key q p n k = [(c.idx, min 0 (c.yq * 65536 - lsOf p))] := by simp [drawChildren, hs, hg, hz]

theorem roundOn_seated {e : Engine} {r : HRow} {slot n k : Nat} {q : Req} (hq : Seated e r.uid slot q)
    (hround : q.w.draft.round = some (n, k)) (hlead : q.w.draft.lead = r.row) : roundOn e r = some (q, n, k) := by
  simp [roundOn, hq.byUid, hround, hlead]

/-- A draft with one more node, the child `c` of node `n`, which is expanded (R166, R169). -/
def grownDraft (dr : Draft) (ctx n : Nat) (c : Nat × Int) : Draft :=
  { dr with
    nodes := dr.nodes.zipIdx.map (fun x => if x.2 + 1 = n then { x.1 with expanded := true } else x.1)
      ++ [{ tok := BitVec.ofNat 24 c.1, parent := n, depth := nodeDepth dr.nodes n + 1, lq := c.2, expanded := false }],
    rootExpanded := dr.rootExpanded || n == 0, round := none, pkv := if n = 0 then ctx else dr.pkv }

theorem grownDraft_length (dr : Draft) (ctx n : Nat) (c : Nat × Int) :
    (grownDraft dr ctx n c).nodes.length = dr.nodes.length + 1 := by simp [grownDraft]

def withGrownDraft (q : Req) (n : Nat) (c : Nat × Int) : Req :=
  { q with w := { q.w with draft := grownDraft q.w.draft (ctxOf q) n c } }

/-- A draft of as many nodes as it may have grows no more (R165). -/
theorem nextExpand_full {e : Engine} {q : Req} (h : nMax e q.d ≤ q.w.draft.nodes.length) : nextExpand e q = none := by
  simp [nextExpand, h]

/-- A complete round that draws one child, the last that the draft has room for: the child joins the draft and the round's
result record says that the draft is done. -/
theorem finishRound_last {e : Engine} {h : Heat} {r : HRow} {n k : Nat} {q : Req} {c : Nat × Int}
    (hcur : e.heat.cur = some h) (hround : roundOn e r = some (q, n, k))
    (hcount : (streamAt h r.row 2).merged.count = h.vocab)
    (hkids : drawChildren (draftKey e q) q (streamAt h r.row 2).merged n k = [c])
    (hroom : nMax e q.d = q.w.draft.nodes.length + 1) :
    finishRound r e = count 3 7 1 (mpRecords (homeQ r.row) false
      [draftResultRec q n (q.w.draft.nodes.length + 1) [c.1] true]
      (draftKeep r.uid (dropStream r.row 2 (modUid r.uid (fun _ => withGrownDraft q n c) e)))) := by
  simp [finishRound, hcur, hround, hcount, hkids, nextExpand_full, hroom, withGrownDraft, grownDraft]

/-- What such a round leaves: the grown draft, and one record on the row's home port. -/
theorem DraftWork.finishRound_last {e : Engine} {h : Heat} {r : HRow} {slot n k : Nat} {q : Req} {c : Nat × Int}
    (hq : Seated e r.uid slot q) (hcur : e.heat.cur = some h) (hround : roundOn e r = some (q, n, k))
    (hcount : (streamAt h r.row 2).merged.count = h.vocab)
    (hkids : drawChildren (Machine.draftKey e q) q (streamAt h r.row 2).merged n k = [c])
    (hroom : nMax e q.d = q.w.draft.nodes.length + 1) :
    DraftWork e r.uid slot (homeQ r.row) (finishRound r e) (withGrownDraft q n c)
      { h with streams := h.streams.filter (fun x => x.row != r.row || x.pair != 2) }
      [recUnit (draftResultRec q n (q.w.draft.nodes.length + 1) [c.1] true)] := by
  have grown : (withGrownDraft q n c).w.uid = r.uid := hq.uid_eq
  have dropped := ((start hq hcur (homeQ r.row)).modUid (f := fun _ => withGrownDraft q n c) grown).modHeat
    (fun h => { h with streams := h.streams.filter (fun x => x.row != r.row || x.pair != 2) })
  rw [Proofs.finishRound_last hcur hround hcount hkids hroom]
  exact (dropped.draftKeep.mpRecords _).count 3 7 1

theorem opDraftRound_eq {e : Engine} {h : Heat} {r : HRow} {slot : Nat} {q : Req} (hslot : reqAt e slot = some q)
    (hcur : e.heat.cur = some h)
    (hrow : h.rows.find? (fun x => x.uid == q.w.uid && x.row == q.w.draft.lead && x.kind != 0) = some r) :
    opDraftRound slot e = judge (finishRound r e) := by simp [opDraftRound, hslot, hcur, hrow]

/-- The record of a round that drew one child and ends the draft (R168). -/
theorem draftResultRec_last (q : Req) (n first t : Nat) : draftResultRec q n first [t] true
    = le 4 q.d.rid.toNat ++ le 1 q.tc ++ [0x51] ++ le 1 (128 + n) ++ le 1 first ++ padTo 24 (le 3 t) := by
  simp [draftResultRec, b2n, le]

/-- Settles O48: the round draws the index of largest z, which fills the draft, and the row cannot be judged yet. -/
theorem draftRoundsGrowTheDraft : Obligations.DraftRoundsGrowTheDraft := by
  unfold Obligations.DraftRoundsGrowTheDraft
  intro s slot h r q n c hfree hcur hjudge hslot huid hruid hrow _ hfind hround hgreedy hroom p hcount hacc hmax dr
  have seat : Seated s.eng r.uid slot.toNat q := ⟨hruid ▸ huid, hslot⟩
  have work := DraftWork.finishRound_last seat hcur (roundOn_seated seat hround hrow.symm) hcount
    (drawChildren_greedy _ n 1 hgreedy hacc hmax) hroom
  have unjudged : opDraftRound slot.toNat s.eng = finishRound r s.eng := by
    rw [opDraftRound_eq hslot hcur hfind, judge_noJudgement work.cur hjudge]
  rw [exec_draftRound_free hfree, unjudged]
  refine ⟨_, _, _, rfl, rfl, work.seat.bySlot, rfl, rfl, rfl, grownDraft_length .., List.getLast?_concat, rfl, rfl, rfl,
    rfl, work.others, work.mem, ?_⟩
  rw [← draftResultRec_last]
  exact work.units

end Sys2Proof.Proofs

/-! # Tokens and verify items (R79, R86, R130, R160, R175-R184) -/

namespace Sys2Proof.Proofs

open Sys2Proof Sys2Proof.Machine Sys2Proof.Certs Sys2Proof.Laws

/-! ## A token that does not end its request -/

/-- `q'` is the running request `q` after token `t`, which does not end it (R79, R86, R146). -/
structure TokenTaken (t : Nat) (q q' : Req) : Prop where
  gen : q'.e.gen = q.e.gen + 1
  st : q'.e.st = .running
  kvpos : q'.e.kvpos = ctxOf q
  desc : q'.d = q.d
  window : q'.w.window = lastWin (q.w.window ++ [BitVec.ofNat 24 t])
  draft : q'.w.draft = q.w.draft.drop
  uid : q'.w.uid = q.w.uid

/-- Without a stop set a token completes no sequence (R86). -/
theorem stopUpdate_noSet {e : Engine} {q : Req} (h : q.d.stopHandle = 0) (t : Nat) :
    stopUpdate e q t = (q.e.stopm, none) := by simp [stopUpdate, regionFor, h]

theorem stopReason_none {q : Req} (hgen : q.e.gen ≠ q.d.maxTokens) (hctx : q.d.promptLen + q.e.gen ≠ 1048576) :
    stopReason q none = none := by simp [stopReason, ctxOf, hgen, hctx]

theorem tokenReq_running {e : Engine} {q : Req} (t : Nat) (late : Bool) (hst : q.e.st = .running)
    (hstop : q.d.stopHandle = 0) (hgen : q.e.gen + 1 < q.d.maxTokens) (hctx : ctxOf q + 1 < 1048576) :
    ∃ q', tokenReq e t late q = (q', false) ∧ TokenTaken t q q' := by
  have noLimit : q.e.gen + 1 ≠ q.d.maxTokens := Nat.ne_of_lt hgen
  have noFull : q.d.promptLen + (q.e.gen + 1) ≠ 1048576 := by
    unfold ctxOf at hctx
    omega
  unfold tokenReq
  simp only [stopUpdate_noSet hstop]
  rw [stopReason_none noLimit noFull]
  exact ⟨_, rfl, { gen := rfl, st := by simp [hst], kvpos := by simp [ctxOf], desc := rfl, window := by dsimp only,
                   draft := rfl, uid := rfl }⟩

/-- R130: a token of a row without deadlines is not late. -/
theorem isLate_noDeadline {h : Heat} {r : HRow} (hdl : r.dl = noDl) (hft : r.ft = noDl) (gen : Nat) :
    isLate h r gen = false := by simp [isLate, hdl, hft]

theorem Seated.of_plain {e : Engine} {slot : Nat} {q : Req} {r : HRow} (hp : Plain e slot q r) :
    Seated e r.uid slot q := by
  obtain ⟨huid, hslot, -⟩ := hp
  exact ⟨huid, hslot⟩

/-- The token of a plain request is counted, and the request takes it. -/
theorem applyToken_plain {e : Engine} {slot : Nat} {q : Req} {r : HRow} (hp : Plain e slot q r) (h : Heat) (gen t : Nat) :
    ∃ q', TokenTaken t q q' ∧ applyToken h r gen t e
      = { eng := modUid r.uid (fun _ => q') (count 3 4 1 (tcount r.tc 3 1 e)), gen := q.e.gen + 1, ended := none,
          late := false, repin := q.w.repinTok } := by
  obtain ⟨huid, -, hst, hstop, hprompt, hgen, hctx, -, hdl, hft, -⟩ := hp
  have counted : reqByUid (count 3 4 1 (tcount r.tc 3 1 e)) r.uid = some (some slot, q) := huid
  obtain ⟨q', htoken, taken⟩ := tokenReq_running (e := count 3 4 1 (tcount r.tc 3 1 e)) t false hst hstop hgen hctx
  refine ⟨q', taken, ?_⟩
  simp [applyToken, isLate_noDeadline hdl hft, counted, htoken, hprompt, taken.gen]

/-- R160: without LOGPROB_EN no continuation records follow a token's own. -/
theorem contRecs_none {d : Desc} (hlog : d.logprobEn = false) (tc : Nat) (p : Part) (kept : Option (List Cand)) :
    contRecs d tc p kept = [] := by simp [contRecs, hlog]

theorem countFlags_none {p : Part} (hclamp : p.clamp = false) (e : Engine) : countFlags p false e = e := by
  simp [countFlags, hclamp]

theorem issueWatch_none {r : HRow} (hwatch : r.watch = 0) (p : Part) (e : Engine) : issueWatch r p e = e := by
  simp [issueWatch, hwatch]

theorem startDraft_off {e : Engine} (hoff : specOn e = false) (h : Heat) (r : HRow) : startDraft h r e = e := by
  unfold startDraft
  split
  · simp [hoff]
  · rfl

theorem rowRecords_unwatched {r : HRow} (hwatch : r.watch = 0) (recs : List (List Byte)) (e : Engine) :
    rowRecords r recs e = mpRecords (homeQ r.row) false recs e := by simp [rowRecords, hwatch]

/-! ## VERIFY_ITEM (R175, R178, R179) -/

theorem exec_verifyItem_free {s : State} (hs : Free s) (row : RowNo) :
    exec (.verifyItem row) s = goes s (opVerifyItem row.toNat s.eng) := by
  obtain ⟨hup, hfree⟩ := hs
  change onEng (capGate _ (opVerifyItem row.toNat)) s = _
  rw [onEng_up hup, capGate_free hfree]
  rfl

/-- A complete item that is not issued is issued by its row's command. -/
theorem opVerifyItem_complete {e : Engine} {h : Heat} {r : HRow} (hcur : e.heat.cur = some h)
    (hrow : rowAt h r.row = some r) (hverify : isVerify r = true) (hissued : r.issued = false) (hlogits : r.logits = true)
    (hall : (itemRows h r).all (rowComplete h) = true) : opVerifyItem r.row e = judge (issueItem r e) := by
  have lead : isFollower r = false := by
    simp only [isVerify, Bool.or_eq_true, beq_iff_eq] at hverify
    simp only [isFollower, beq_eq_false_iff_ne]
    omega
  simp [opVerifyItem, issueIfReady, hcur, hrow, hverify, hissued, hlogits, lead, hall]

/-- R153: without TOPK, MINP and TOPP, and with no more indices than the list holds, the kept set is the list, whole. -/
theorem keptOf_open {d : Desc} {cap : Nat} {p : Part} (hk : d.topk = 0) (hm : d.minp = 0) (hp : d.topp = 0)
    (hcount : p.count - p.excl ≤ cap) : keptOf d cap p = { set := p.cands.take cap, trunc := false } := by
  simp [keptOf, hk, hm, hp, Nat.not_lt.2 hcount, List.take_take]

/-- R179: the children of a node, none of them the selection of a GREEDY request, are rejected in turn. -/
theorem tryKids_greedy_reject {d : Desc} (hg : d.greedy = true) {p1 : Part} {sel : Option Nat} {kids : List HRow}
    (hlq : ∀ c ∈ kids, lqDiffers p1 c = false) (hsel : ∀ c ∈ kids, sel ≠ some c.tokn.toNat) (key : U128) (step : U32)
    (pos sq : Nat) (w : List (Nat × Nat)) (j : Nat) (s : WalkSt) :
    tryKids d key step pos p1 sel sq kids w j s = (none, w, j + kids.length, { s with rej := s.rej + kids.length }) := by
  induction kids generalizing j s with
  | nil => rfl
  | cons c cs ih =>
    obtain ⟨hlqc, hlqcs⟩ := List.forall_mem_cons.1 hlq
    obtain ⟨hselc, hselcs⟩ := List.forall_mem_cons.1 hsel
    have more (n : Nat) : n + 1 + cs.length = n + (cs.length + 1) := by omega
    simp only [tryKids, noteLq, hlqc, hg, beq_eq_false_iff_ne.2 hselc, Bool.false_eq_true, if_false, if_true,
      ih hlqcs hselcs, List.length_cons, more]

/-- A node of a GREEDY request none of whose children is the index `c.idx` of largest z: the walk issues that index from
the node's row, and ends. -/
theorem itemWalk_greedy_reject {h : Heat} {r row : HRow} {k : Kept} {c : Cand} {kids : List HRow} (hg : r.d.greedy = true)
    (hacc : (streamAt h row.row 0).merged.accS ≠ 0) (hacc1 : (streamAt h row.row 1).merged.accS ≠ 0)
    (hmax : (streamAt h row.row 0).merged.maxZ = some c)
    (hkept : keptOf r.d (candCap h.nrows) (streamAt h row.row 0).merged = k) (hset : k.set.isEmpty = false)
    (hkids : (itemRows h r).filter (fun c => c.row != r.row && c.parent == row.node) = kids)
    (hlq : ∀ x ∈ kids, lqDiffers (streamAt h row.row 1).merged x = false) (htok : ∀ x ∈ kids, some c.idx ≠ some x.tokn.toNat)
    (fuel : Nat) (s : WalkSt) :
    itemWalk h r (fuel + 1) row s = (itemToken h r row c.idx k.set k.trunc
      { s with rej := s.rej + kids.length, bonus := kids.isEmpty }).1 := by
  simp [itemWalk, hacc, hacc1, hkept, hset, hkids, itemSelect, hg, hmax, tryKids_greedy_reject hg hlq htok]

/-- One token of an item, with its one record. -/
theorem itemToken_single {h : Heat} {r row : HRow} (hlog : r.d.logprobEn = false)
    (hclamp : (streamAt h row.row 0).merged.clamp = false) (t : Nat) (kept : List Cand) (s : WalkSt) :
    ∃ b, (itemToken h r row t kept false s).1
      = { s with eng := (applyToken h r (r.gen + s.ntok + 1) t s.eng).eng, ntok := s.ntok + 1, recs := s.recs ++ [b] } :=
  ⟨_, by simp only [itemToken, countFlags_none hclamp, tokenRecs, contRecs_none hlog]; rfl⟩

/-- A walk at its start (R178). -/
def walkStart (e : Engine) : WalkSt :=
  { eng := e, recs := [], ntok := 0, path := [], rej := 0, mismatch := false, reszero := false, bonus := false,
    stopEmpty := false, empty := false }

/-- A walk that rejected the one draft node of its item and issued one token, whose record is `b`. -/
def walkRejected (b : List Byte) (e : Engine) : WalkSt :=
  { walkStart e with recs := [b], ntok := 1, rej := 1 }

/-- A chain item of a GREEDY request, rows `r` and `f`, whose one draft node is not the index of largest z, that of `c`;
the row keeps its whole list, which is not empty. -/
structure RejectedChain (h : Heat) (r f : HRow) (c : Cand) : Prop where
  rows : h.rows = [r, f]
  rowNe : f.row ≠ r.row
  lead : r.lead = r.row
  leadF : f.lead = r.row
  parent : f.parent = r.node
  greedy : r.d.greedy = true
  acc : (streamAt h r.row 0).merged.accS ≠ 0
  acc1 : (streamAt h r.row 1).merged.accS ≠ 0
  max : (streamAt h r.row 0).merged.maxZ = some c
  clamp : (streamAt h r.row 0).merged.clamp = false
  cands : (streamAt h r.row 0).merged.cands ≠ []
  tok : f.tokn.toNat ≠ c.idx
  lq : lqDiffers (streamAt h r.row 1).merged f = false
  topk : r.d.topk = 0
  minp : r.d.minp = 0
  topp : r.d.topp = 0
  room : (streamAt h r.row 0).merged.count - (streamAt h r.row 0).merged.excl ≤ candCap h.nrows

theorem candCap_pos (n : Nat) : 0 < candCap n := by
  unfold candCap
  split <;> decide

namespace RejectedChain

variable {h : Heat} {r f : HRow} {c : Cand} (hr : RejectedChain h r f c)
include hr

theorem itemRows_eq : itemRows h r = [r, f] := by simp [itemRows, hr.rows, hr.lead, hr.leadF]

theorem rowAt_eq : rowAt h r.row = some r := by simp [rowAt, hr.rows]

theorem lead_of_verify (hf : isVerify f = false) : ∀ x ∈ h.rows, isVerify x = true → x.lead = x.row := by
  intro x hx hv
  simp only [hr.rows, List.mem_cons, List.not_mem_nil, or_false] at hx
  rcases hx with rfl | rfl
  · exact hr.lead
  · simp [hf] at hv

/-- The walk tries the draft node, rejects it and issues the selection. -/
theorem itemWalk_eq (hlog : r.d.logprobEn = false) (fuel : Nat) (e : Engine) :
    ∃ b, itemWalk h r (fuel + 1) r (walkStart e) = walkRejected b (applyToken h r (r.gen + 1) c.idx e).eng := by
  have kids : (itemRows h r).filter (fun x => x.row != r.row && x.parent == r.node) = [f] := by
    simp [hr.itemRows_eq, hr.rowNe, hr.parent]
  have listed : ((streamAt h r.row 0).merged.cands.take (candCap h.nrows)).isEmpty = false := by
    simp [hr.cands, Nat.ne_of_gt (candCap_pos h.nrows)]
  have walk := itemWalk_greedy_reject hr.greedy hr.acc hr.acc1 hr.max (keptOf_open hr.topk hr.minp hr.topp hr.room)
    listed kids (by simpa using hr.lq) (by simpa using hr.tok.symm) fuel (walkStart e)
  obtain ⟨b, hb⟩ := itemToken_single hlog hr.clamp c.idx
    ((streamAt h r.row 0).merged.cands.take (candCap h.nrows)) { walkStart e with rej := 1, bonus := false }
  exact ⟨b, walk.trans hb⟩

end RejectedChain

/-- The request whose draft node was rejected: it holds no draft, and PKV is the context of the item's lead row (R169). -/
def undrafted (r : HRow) (q : Req) : Req :=
  { q with w := { q.w with draft := { q.w.draft.drop with pkv := r.pos + 1 } } }

/-- The engine once an item that accepted no node is counted and its draft is gone (R169). -/
def draftGone (r : HRow) (e : Engine) : Engine :=
  draftKeep r.uid (modUid r.uid (undrafted r)
    (count 3 5 1 (count 3 6 0 (bumpOpen rSPR_SPEC_CNT 63 32 r.draft (bumpOpen rSPR_SPEC_CNT 31 0 0 e)))))

theorem DraftWork.draftGone {e e1 : Engine} {h : Heat} {r : HRow} {slot port : Nat} {q : Req} {us : List MpUnit}
    (w : DraftWork e r.uid slot port e1 q h us) :
    DraftWork e r.uid slot port (Proofs.draftGone r e1) (undrafted r q) h us := by
  have counted := (((w.bumpSpecCnt 31 0 0).bumpSpecCnt 63 32 r.draft).count 3 6 0).count 3 5 1
  have uid : (undrafted r q).w.uid = r.uid := w.seat.uid_eq
  exact (counted.modUid uid).draftKeep

theorem DraftWork.specOn_eq {e e1 : Engine} {h : Heat} {uid slot port : Nat} {q : Req} {us : List MpUnit}
    (w : DraftWork e uid slot port e1 q h us) : specOn e1 = specOn e := by
  rw [specOn, specOn, regB, regB, w.regs rSPR_SPEC_CTRL (by simp [rSPR_SPEC_CTRL, rSPR_SPEC_CNT])]

/-- An item whose walk rejected its draft node ends with the records of the item and of its token. -/
theorem issueItem_walked {e e1 : Engine} {h : Heat} {r : HRow} {b : List Byte} (hcur : e.heat.cur = some h)
    (hwalk : itemWalk h r 10 r (walkStart e) = walkRejected b e1) :
    issueItem r e = startDraft h r (issueWatch r (streamAt h r.row 0).merged (setIssued r.row
      (rowRecords r [verifyRec (draftGone r e1) r (walkRejected b e1), b] (draftGone r e1)))) := by
  unfold walkStart at hwalk
  simp only [issueItem, hcur, hwalk]
  rfl

/-- The heat with the rows of number `row` issued. -/
def withIssued (row : Nat) (h : Heat) : Heat :=
  { h with rows := h.rows.map (fun r => if r.row = row then { r with issued := true } else r) }

/-- Issuing a row leaves every verify row the lead of its item. -/
theorem withIssued_lead {h : Heat} (hl : ∀ r ∈ h.rows, isVerify r = true → r.lead = r.row) (row : Nat) :
    ∀ r ∈ (withIssued row h).rows, isVerify r = true → r.lead = r.row := by
  intro x hx hv
  obtain ⟨y, hy, rfl⟩ := List.mem_map.1 hx
  by_cases hrow : y.row = row
  · simp only [hrow, if_true] at hv ⊢
    exact (hl y hy hv).trans hrow
  · simp only [hrow, if_false] at hv ⊢
    exact hl y hy hv

/-- What such an item leaves, of a plain row: the draft gone, and two records on the row's home port. -/
theorem DraftWork.issueItem_rejected {e e1 : Engine} {h : Heat} {r : HRow} {b : List Byte} {slot : Nat} {q : Req}
    (hcur : e.heat.cur = some h) (hwalk : itemWalk h r 10 r (walkStart e) = walkRejected b e1) (hwatch : r.watch = 0)
    (hoff : specOn e = false) (w : DraftWork e r.uid slot (homeQ r.row) e1 q h []) :
    DraftWork e r.uid slot (homeQ r.row) (issueItem r e) (undrafted r q) (withIssued r.row h)
      [recUnit (verifyRec (Proofs.draftGone r e1) r (walkRejected b e1)), recUnit b] := by
  have issued := (w.draftGone.mpRecords [verifyRec (Proofs.draftGone r e1) r (walkRejected b e1), b]).modHeat
    (withIssued r.row)
  have eq : issueItem r e = Machine.modHeat (withIssued r.row) (Machine.mpRecords (homeQ r.row) false
      [verifyRec (Proofs.draftGone r e1) r (walkRejected b e1), b] (Proofs.draftGone r e1)) := by
    rw [issueItem_walked hcur hwalk, issueWatch_none hwatch, rowRecords_unwatched hwatch]
    exact startDraft_off (issued.specOn_eq.trans hoff) h r
  rw [eq]
  exact issued

/-- The verify record of an item of one draft node, which was rejected. -/
theorem verifyRec_rejected {e e' : Engine} (ht : e'.time = e.time) {r : HRow} (hkind : r.kind = 3) (hdraft : r.draft = 1)
    (b : List Byte) (e1 : Engine) : verifyRec e' r (walkRejected b e1)
      = le 4 r.rid.toNat ++ le 1 r.tc ++ [0x41, 1, 0, 0, 1] ++ zeros 2 ++ zeros 8
        ++ le 4 (e.time.num.toNat % 2 ^ 32) ++ le 8 e.time.stamp.toNat := by
  simp [verifyRec, walkRejected, walkStart, ht, hkind, hdraft, b2n, le, padTo, zeros]

/-- The token of a plain request, as work on its draft: the request takes it and drops what it had drafted. -/
theorem DraftWork.applyToken {e : Engine} {slot : Nat} {q : Req} {r : HRow} {h : Heat} (hp : Plain e slot q r)
    (hcur : e.heat.cur = some h) (gen t port : Nat) :
    ∃ q', TokenTaken t q q' ∧ DraftWork e r.uid slot port (Machine.applyToken h r gen t e).eng q' h [] := by
  obtain ⟨q', taken, happly⟩ := applyToken_plain hp h gen t
  have seat := Seated.of_plain hp
  have uid : q'.w.uid = r.uid := taken.uid.trans seat.uid_eq
  refine ⟨q', taken, ?_⟩
  rw [happly]
  exact (((start seat hcur port).tcount r.tc 3 1).count 3 4 1).modUid (f := fun _ => q') uid

/-- Settles O47: the walk rejects the draft node and issues the selection from the lead's row; the draft goes, and the item
cannot be judged yet. -/
theorem verifyItemsIssueTheirTokens : Obligations.VerifyItemsIssueTheirTokens := by
  unfold Obligations.VerifyItemsIssueTheirTokens
  intro s row h r f slot q c cs hfree hcur hrows hrow hne hlead hleadF hkind hkindF hparent hdraft hmark hp hgreedy hdone
    hdoneF p p1 hacc hacc1 hmax hclamp hcands htok hlq htopk hminp htopp hroom
  have ⟨_, _, _, _, _, _, _, hlog, _, _, hwatch, hissued, hlogits, hoff⟩ := hp
  subst p p1
  rw [← hrow] at hacc hacc1 hmax hclamp hcands hlq hroom
  have hr : RejectedChain h r f c :=
    { rows := hrows, rowNe := hne, lead := hlead, leadF := hleadF, parent := hparent, greedy := hgreedy, acc := hacc,
      acc1 := hacc1, max := hmax, clamp := hclamp, cands := by simp [hcands], tok := htok, lq := hlq, topk := htopk,
      minp := hminp, topp := htopp, room := hroom }
  obtain ⟨b, hwalk⟩ := hr.itemWalk_eq hlog 9 s.eng
  obtain ⟨q', taken, applied⟩ := DraftWork.applyToken hp hcur (r.gen + 1) c.idx (homeQ r.row)
  have work := DraftWork.issueItem_rejected hcur hwalk hwatch hoff applied
  rw [verifyRec_rejected applied.draftGone.time hkind hdraft] at work
  have leads := withIssued_lead (hr.lead_of_verify (by simp [isVerify, hkindF])) r.row
  have run : opVerifyItem r.row s.eng = issueItem r s.eng := by
    rw [opVerifyItem_complete hcur hr.rowAt_eq (by simp [isVerify, hkind]) hissued hlogits
      (by simp [hr.itemRows_eq, hdone, hdoneF]), judge_noMarkers work.cur hmark leads]
  have units : unitsOf (issueItem r s.eng) (r.row % 4) = _ := work.units
  rw [exec_verifyItem_free hfree, ← hrow, run]
  refine ⟨_, _, rfl, rfl, work.seat.bySlot, taken.gen, taken.window, ?_, work.others, work.mem, ?_, ?_⟩
  · simp [undrafted, taken.draft, Draft.drop]
  · rw [units, List.length_append]
    rfl
  · rw [units]
    exact List.take_length_add_append 1

end Sys2Proof.Proofs

/-! # Register writes that act: FLT_HOLD, DBG_HANG_CTRL, LANE_ADV_SEL, BRW_GRANT_BASE, VAR_XSET_BASE, IDX_CTRL
(18_register_map.md; R210, R239, R256, R297, R377, R385, R404) -/

namespace Sys2Proof.Proofs

open Sys2Proof Sys2Proof.Machine Sys2Proof.Certs Sys2Proof.Laws

/-! ## The rows, while the control port answers at once -/

section Rows

variable {s : State} (hs : PortOpen s)
include hs

theorem exec_holdCauseClear (val : U32) :
    exec (.holdCauseClear val) s = goes s (cpDo (wr32 rFLT_HOLD val true) s.eng) := by
  rw [← opCp_portOpen hs]; rfl

theorem exec_hangTake (val : U32) :
    exec (.hangTake val) s = goes s (cpDo (wr32 rDBG_HANG_CTRL val true) s.eng) := by
  rw [← opCp_portOpen hs]; rfl

theorem exec_laneAdvice (sel : U32) :
    exec (.laneAdvice sel) s = goes s (cpDo (wr32 rLANE_ADV_SEL sel true) s.eng) := by
  rw [← opCp_portOpen hs]; rfl

theorem exec_grantEnable (val : U64) :
    exec (.grantEnable val) s = goes s (cpDo (wr64 rBRW_GRANT_BASE val true) s.eng) := by
  rw [← opCp_portOpen hs]; rfl

theorem exec_xsetEnable (val : U64) :
    exec (.xsetEnable val) s = goes s (cpDo (wr64 rVAR_XSET_BASE val true) s.eng) := by
  rw [← opCp_portOpen hs]; rfl

theorem exec_indexEnable (val : U32) :
    exec (.indexEnable val) s = goes s (cpDo (wr32 rIDX_CTRL val true) s.eng) := by
  rw [← opCp_portOpen hs]; rfl

end Rows

/-! ## Bits of a stored value -/

/-- A value of `w` bits, widened, has none above them. -/
theorem setWidth_and_allOnes {w : Nat} (x : BitVec w) :
    x.setWidth 64 &&& (BitVec.allOnes w).setWidth 64 = x.setWidth 64 := by
  rw [← BitVec.setWidth_and, BitVec.and_allOnes]

/-- Writing a register's own value with further writable bits set sets just these. -/
theorem merge_or {old b m : U64} (hb : b &&& m = b) : (old &&& ~~~m) ||| ((old ||| b) &&& m) = old ||| b := by
  calc (old &&& ~~~m) ||| ((old ||| b) &&& m)
      = ((old &&& ~~~m) ||| (old &&& m)) ||| (b &&& m) := by rw [BitVec.and_or_distrib_right, BitVec.or_assoc]
    _ = old ||| b := by
      rw [← BitVec.and_or_distrib_left, BitVec.or_comm (~~~m), BitVec.or_not_self, BitVec.and_allOnes, hb]

theorem bits_or (x y : U64) (hi lo : Nat) : bits (x ||| y) hi lo = bits x hi lo ||| bits y hi lo := by
  simp [bits, Nat.shiftRight_or_distrib, Nat.or_mod_two_pow]

theorem bits_and (x y : U64) (hi lo : Nat) : bits (x &&& y) hi lo = bits x hi lo &&& bits y hi lo := by
  simp [bits, Nat.shiftRight_and_distrib, Nat.and_mod_two_pow]

theorem bit_or_of_set (x : U64) {b : U64} {n : Nat} (hb : bit b n = true) : bit (x ||| b) n = true := by
  unfold bit at *
  rw [BitVec.getLsbD_or, hb, Bool.or_true]

theorem changed_or {old b : U64} {hi lo : Nat} (hb : bits b hi lo = 0) : changed old (old ||| b) hi lo = false := by
  simp [changed, bits_or, hb]

/-! ## Privileged writes of the privileged window -/

/-- A 32-bit privileged write of a 32-bit register of the window writes the register whole. -/
theorem cpDo_wr32_priv {o : Nat} {r : RegInfo} (val : U32) (e : Engine) (ho : o < 0x1000) (ha : o % 4 = 0)
    (hr : infoAt o = some r) (hw : r.wide = false) :
    cpDo (wr32 o val true) e = answer 0 false (writeWhole r (val.setWidth 64) true e) := by
  have off : (BitVec.ofNat 21 o).toNat = o := by rw [BitVec.toNat_ofNat]; omega
  have low : val.setWidth 64 &&& 0xFFFFFFFF = val.setWidth 64 := setWidth_and_allOnes val
  rw [wr32, cpDo_write32 _ _ _ _ (by rw [off, ha]) (.inl rfl), off, write32_narrow _ _ _ hr hw, low]

/-- A 64-bit privileged write of a 64-bit register of the window drops a low half that waited and writes the register
whole. -/
theorem cpDo_wr64_priv {o : Nat} {r : RegInfo} (val : U64) (e : Engine) (ho : o < 0x1000) (ha : o % 8 = 0)
    (hr : infoAt o = some r) (hw : r.wide = true) :
    cpDo (wr64 o val true) e
      = answer 0 false (writeWhole r val true { e with wrLatch := tdel e.wrLatch o }) := by
  have off : (BitVec.ofNat 21 o).toNat = o := by rw [BitVec.toNat_ofNat]; omega
  rw [wr64, cpDo_write64 _ _ _ _ (by rw [off, ha]) (.inl rfl), off, write64_wide _ _ _ hr hw]

/-- A privileged write of a register of the window with writable bits: the guard judges it (R404), then it acts. -/
theorem writeWhole_priv {o : Nat} {r : RegInfo} (v : U64) (e : Engine) (ho : o < 0x1000) (hr : infoAt o = some r)
    (hw : writable r true ≠ 0) :
    writeWhole r v true e = if guardPriv o (reg e o) (stored r true (reg e o) v) e then guardErr o e
      else writePriv o v (stored r true (reg e o) v) e := by
  obtain rfl := infoAt_off hr
  exact (if_neg hw).trans (if_pos ho)

/-- Of a register without W1C fields, a privileged write stores its writable bits. -/
theorem stored_priv {r : RegInfo} (old v : U64) (hc : r.w1c = 0) :
    stored r true old v
      = (old &&& ~~~BitVec.ofNat 64 (r.rw ||| r.rwp)) ||| (v &&& BitVec.ofNat 64 (r.rw ||| r.rwp)) := by
  rw [stored, hc, BitVec.and_zero, BitVec.not_zero, BitVec.and_allOnes]
  rfl

/-- A register without W1C fields, written its own value with further writable bits set: the guard judges that value, and
it is what the write stores. -/
theorem writeWhole_or {o : Nat} {r : RegInfo} {b : U64} (e : Engine) (ho : o < 0x1000) (hr : infoAt o = some r)
    (hc : r.w1c = 0) (hw : writable r true ≠ 0) (hb : b &&& BitVec.ofNat 64 (r.rw ||| r.rwp) = b) :
    writeWhole r (reg e o ||| b) true e
      = if guardPriv o (reg e o) (reg e o ||| b) e then guardErr o e
        else writePriv o (reg e o ||| b) (reg e o ||| b) e := by
  rw [writeWhole_priv _ _ ho hr hw, stored_priv _ _ hc, merge_or hb]

/-! ## FLT_HOLD (R385) -/

theorem infoAt_fltHold : infoAt rFLT_HOLD
    = some { off := 0xF04, wide := false, rw := 0, rwp := 0, w1c := 0x18, rc := 0, wo := 0, reset := 0x3 } := rfl

theorem cpDo_fltHold (val : U32) (e : Engine) :
    cpDo (wr32 rFLT_HOLD val true) e = answer 0 false (opHoldClear (val.setWidth 64).toNat e) := by
  rw [cpDo_wr32_priv val e (by decide) rfl infoAt_fltHold rfl,
    writeWhole_priv _ e (by decide) infoAt_fltHold (by decide)]
  rfl

/-- Writes of 1 to STRIDE and FAULT clear them. -/
theorem opHoldClear_eq (val : U32) (e : Engine) :
    opHoldClear (val.setWidth 64).toNat e = { e with flt := { e.flt with
      stride := e.flt.stride && !val.getLsbD 4, fault := e.flt.fault && !val.getLsbD 3 } } := by
  have hbit (n : Nat) (hn : n < 64) : nbit (val.setWidth 64).toNat n = val.getLsbD n := by
    rw [nbit, BitVec.testBit_toNat, BitVec.getLsbD_setWidth, decide_eq_true hn, Bool.true_and]
  rw [opHoldClear, hbit 4 (by decide), hbit 3 (by decide)]
  rfl

/-! ## DBG_HANG_CTRL (R377) -/

theorem infoAt_hangCtrl : infoAt rDBG_HANG_CTRL
    = some { off := 0xE40, wide := false, rw := 0, rwp := 0xFFFF,
             w1c := 0, rc := 0, wo := 0x80000000, reset := 0x3E8 } := rfl

/-- TMO takes the written field, and TAKE triggers a snapshot of CAUSE 3 in every quadrant. -/
theorem cpDo_hangTake (tmo : U16) (e : Engine) :
    cpDo (wr32 rDBG_HANG_CTRL (0x80000000#32 ||| tmo.setWidth 32) true) e
      = answer 0 false (hangAll 3
          (setReg rDBG_HANG_CTRL ((reg e rDBG_HANG_CTRL &&& ~~~0xFFFF#64) ||| tmo.setWidth 64) e)) := by
  have written : (0x80000000#32 ||| tmo.setWidth 32).setWidth 64 = 0x80000000#64 ||| tmo.setWidth 64 := by
    have widened : (tmo.setWidth 32).setWidth 64 = tmo.setWidth 64 := by
      apply BitVec.eq_of_toNat_eq
      simp only [BitVec.toNat_setWidth]
      omega
    rw [BitVec.setWidth_or, widened]
    rfl
  have field : (0x80000000#64 ||| tmo.setWidth 64) &&& 0xFFFF#64 = tmo.setWidth 64 := by
    rw [BitVec.and_or_distrib_right]
    exact BitVec.zero_or.trans (setWidth_and_allOnes tmo)
  have take : bit (0x80000000#64 ||| tmo.setWidth 64) 31 = true := by
    rw [BitVec.or_comm]
    exact bit_or_of_set _ rfl
  rw [cpDo_wr32_priv _ e (by decide) rfl infoAt_hangCtrl rfl, written,
    writeWhole_priv _ e (by decide) infoAt_hangCtrl (by decide), stored_priv _ _ rfl]
  simp only [Nat.zero_or, field]
  exact congrArg (answer 0 false) (if_pos take)

/-! ## LANE_ADV_SEL (R297) -/

theorem infoAt_laneAdvSel : infoAt rLANE_ADV_SEL
    = some { off := 0xB28, wide := false, rw := 0, rwp := 0x7FFF, w1c := 0, rc := 0, wo := 0, reset := 0x0 } := rfl

/-- The selection a write of TC and COUNT leaves, the bits above it kept. -/
def advSel (old : U64) (tc : U8) (count : BitVec 7) : U64 :=
  (old &&& ~~~0x7FFF#64) ||| BitVec.ofNat 64 (count.toNat * 256 + tc.toNat)

theorem bits_advSel (old : U64) (tc : U8) (count : BitVec 7) :
    bits (advSel old tc count) 7 0 = tc.toNat ∧ bits (advSel old tc count) 14 8 = count.toNat := by
  have htc := tc.isLt
  have hcount := count.isLt
  have tcClear : bits (~~~0x7FFF#64) 7 0 = 0 := by decide
  have countClear : bits (~~~0x7FFF#64) 14 8 = 0 := by decide
  rw [advSel, bits_or, bits_or, bits_and, bits_and, tcClear, countClear]
  simp only [Nat.and_zero, Nat.zero_or, bits, BitVec.toNat_ofNat, Nat.shiftRight_eq_div_pow]
  omega

theorem cpDo_laneAdvice (tc : U8) (count : BitVec 7) (e : Engine) :
    cpDo (wr32 rLANE_ADV_SEL (BitVec.ofNat 32 (count.toNat * 256 + tc.toNat)) true) e
      = answer 0 false (laneAdvise (setReg rLANE_ADV_SEL (advSel (reg e rLANE_ADV_SEL) tc count) e)) := by
  have htc := tc.isLt
  have hcount := count.isLt
  have field : (BitVec.ofNat 32 (count.toNat * 256 + tc.toNat)).setWidth 64 &&& 0x7FFF#64
      = BitVec.ofNat 64 (count.toNat * 256 + tc.toNat) := by
    apply BitVec.eq_of_toNat_eq
    rw [BitVec.toNat_and, show (0x7FFF#64).toNat = 2 ^ 15 - 1 from rfl, Nat.and_two_pow_sub_one_eq_mod,
      BitVec.toNat_setWidth, BitVec.toNat_ofNat, BitVec.toNat_ofNat]
    omega
  rw [cpDo_wr32_priv _ e (by decide) rfl infoAt_laneAdvSel rfl,
    writeWhole_priv _ e (by decide) infoAt_laneAdvSel (by decide), stored_priv _ _ rfl]
  simp only [Nat.zero_or, field]
  rfl

/-- The advice for the selection just stored. -/
theorem laneAdvise_advSel (old : U64) (tc : U8) (count : BitVec 7) (e : Engine) :
    (laneAdvise (setReg rLANE_ADV_SEL (advSel old tc count) e)).lanes
      = { e.lanes with adv := setBits (adviseLanes e.lanes.bFree
          ((e.lanes.bReqs.filter (fun p => p.1 == tc.toNat)).map (·.2)) count.toNat) } := by
  obtain ⟨htc, hcount⟩ := bits_advSel old tc count
  simp [laneAdvise, regN, htc, hcount]

/-! ## BRW_GRANT_BASE and VAR_XSET_BASE (R210, R256) -/

theorem infoAt_grantBase : infoAt rBRW_GRANT_BASE
    = some { off := 0x700, wide := true, rw := 0, rwp := 0xFFFFFFFFFFFE0001,
             w1c := 0, rc := 0, wo := 0, reset := 0x0 } := rfl

theorem infoAt_xsetBase : infoAt rVAR_XSET_BASE
    = some { off := 0x918, wide := true, rw := 0, rwp := 0xFFFFFFFFFFFC0001,
             w1c := 0, rc := 0, wo := 0, reset := 0x0 } := rfl

/-- Setting EN with BASE as it is passes the guard, which forbids only a changed BASE together with EN. -/
theorem guardPriv_grantOn (old : U64) (e : Engine) : guardPriv rBRW_GRANT_BASE old (old ||| 1) e = false := by
  show (changed old (old ||| 1) 63 17 && bit (old ||| 1) 0) = false
  rw [changed_or (by decide), Bool.false_and]

theorem guardPriv_xsetOn (old : U64) (e : Engine) : guardPriv rVAR_XSET_BASE old (old ||| 1) e = false := by
  show (changed old (old ||| 1) 63 18 && bit (old ||| 1) 0) = false
  rw [changed_or (by decide), Bool.false_and]

theorem opGrantBase_rise {e : Engine} (x : U64) (h : grantOn e = false) : opGrantBase (x ||| 1) e
    = (tenants e).foldl (fun e tc => grantTenant tc e) (setReg rBRW_GRANT_BASE (x ||| 1) e) := by
  have rise : (bit (x ||| 1) 0 && !grantOn e) = true := by rw [bit_or_of_set x rfl, h]; rfl
  exact if_pos rise

theorem opXsetBase_rise {e : Engine} (x : U64) (h : xsetOn e = false) : opXsetBase (x ||| 1) e
    = (e.xsets.filter (fun x => x.2.owner.isSome)).foldl (fun e x => xsetWrite x.1 x.2 e)
        (setReg rVAR_XSET_BASE (x ||| 1) e) := by
  have rise : (bit (x ||| 1) 0 && !xsetOn e) = true := by rw [bit_or_of_set x rfl, h]; rfl
  exact if_pos rise

theorem cpDo_grantEnable (e : Engine) :
    cpDo (wr64 rBRW_GRANT_BASE (reg e rBRW_GRANT_BASE ||| 1) true) e
      = answer 0 false (opGrantBase (reg e rBRW_GRANT_BASE ||| 1)
          { e with wrLatch := tdel e.wrLatch rBRW_GRANT_BASE }) := by
  rw [cpDo_wr64_priv _ e (by decide) rfl infoAt_grantBase rfl]
  refine congrArg (answer 0 false) ((writeWhole_or _ (by decide) infoAt_grantBase rfl (by decide) (by decide)).trans ?_)
  rw [guardPriv_grantOn]
  rfl

theorem cpDo_xsetEnable (e : Engine) :
    cpDo (wr64 rVAR_XSET_BASE (reg e rVAR_XSET_BASE ||| 1) true) e
      = answer 0 false (opXsetBase (reg e rVAR_XSET_BASE ||| 1)
          { e with wrLatch := tdel e.wrLatch rVAR_XSET_BASE }) := by
  rw [cpDo_wr64_priv _ e (by decide) rfl infoAt_xsetBase rfl]
  refine congrArg (answer 0 false) ((writeWhole_or _ (by decide) infoAt_xsetBase rfl (by decide) (by decide)).trans ?_)
  rw [guardPriv_xsetOn]
  rfl

/-! ## IDX_CTRL (R239, R404) -/

theorem infoAt_idxCtrl : infoAt rIDX_CTRL
    = some { off := 0x800, wide := false, rw := 0, rwp := 0x8000001F, w1c := 0, rc := 0, wo := 0, reset := 0x10 } := rfl

/-- A rise of EN alone passes the guard exactly while the engine is quiet and no MOVE or FETCH order is out. -/
theorem guardPriv_idxOn {old : U64} (e : Engine) (h : bit old 31 = false) :
    guardPriv rIDX_CTRL old (old ||| 0x80000000) e = (!quiet e || movesOut e) := by
  have rise : (!bit old 31 && bit (old ||| 0x80000000) 31) = true := by
    rw [bit_or_of_set old rfl, h]
    rfl
  show (changed old (old ||| 0x80000000) 4 0 && _ || (!bit old 31 && bit (old ||| 0x80000000) 31) && _) = _
  rw [changed_or (by decide), Bool.false_and, Bool.false_or, rise, Bool.true_and]

theorem opIdxCtrl_rise {e : Engine} {x : U64} (h : regB e rIDX_CTRL 31 = false) :
    opIdxCtrl (x ||| 0x80000000) e = idxClear (setReg rIDX_CTRL (x ||| 0x80000000) e) := by
  have rise : (bit (x ||| 0x80000000) 31 && !regB e rIDX_CTRL 31) = true := by
    rw [bit_or_of_set x rfl, h]
    rfl
  exact if_pos rise

/-- EN rises if the guard lets it, and clears the index. -/
theorem cpDo_indexEnable {e : Engine} (hen : regB e rIDX_CTRL 31 = false) (hsmall : (reg e rIDX_CTRL).toNat < 32) :
    cpDo (wr32 rIDX_CTRL ((reg e rIDX_CTRL).setWidth 32 ||| 0x80000000) true) e
      = answer 0 false (if (!quiet e || movesOut e) = true then guardErr rIDX_CTRL e
          else idxClear (setReg rIDX_CTRL (reg e rIDX_CTRL ||| 0x80000000) e)) := by
  have written : ((reg e rIDX_CTRL).setWidth 32 ||| 0x80000000).setWidth 64 = reg e rIDX_CTRL ||| 0x80000000 := by
    have fits : ((reg e rIDX_CTRL).setWidth 32).setWidth 64 = reg e rIDX_CTRL := by
      apply BitVec.eq_of_toNat_eq
      rw [BitVec.toNat_setWidth, BitVec.toNat_setWidth]
      omega
    rw [BitVec.setWidth_or, fits]
    rfl
  rw [cpDo_wr32_priv _ e (by decide) rfl infoAt_idxCtrl rfl, written,
    writeWhole_or e (by decide) infoAt_idxCtrl rfl (by decide) (by decide), guardPriv_idxOn e hen,
    ← opIdxCtrl_rise hen]
  rfl

/-! ## The obligation -/

/-- Settles O18: the port does each write at once, and the laws above say what a write of each register does. -/
theorem writesThatAct : Obligations.WritesThatAct := by
  unfold Obligations.WritesThatAct
  refine ⟨fun s val hs => ?_, fun s tmo hs => ⟨_, rfl, ?_⟩, fun s tc count hs => ?_,
    fun s hs => ⟨fun hoff => ?_, fun hoff => ?_⟩, fun s hs hen hsmall => ⟨fun hquiet hmoves => ?_, fun hbusy => ?_⟩⟩
  · rw [exec_holdCauseClear hs, cpDo_fltHold, opHoldClear_eq]
  · rw [exec_hangTake hs, cpDo_hangTake]
    rfl
  · rw [exec_laneAdvice hs, cpDo_laneAdvice]
    exact ⟨_, rfl, rfl, laneAdvise_advSel _ tc count s.eng, fun p hp => reg_setReg_other s.eng _ p _ hp, rfl⟩
  · rw [exec_grantEnable hs, cpDo_grantEnable]
    exact congrArg (fun e => goes s (answer 0 false e)) (opGrantBase_rise _ hoff)
  · rw [exec_xsetEnable hs, cpDo_xsetEnable]
    exact congrArg (fun e => goes s (answer 0 false e)) (opXsetBase_rise _ hoff)
  · rw [exec_indexEnable hs, cpDo_indexEnable hen hsmall, hquiet, hmoves]
    exact ⟨_, rfl, rfl, rfl, rfl⟩
  · have forbidden : (!quiet s.eng || movesOut s.eng) = true := by
      rcases hbusy with h | h <;> simp [h]
    rw [exec_indexEnable hs, cpDo_indexEnable hen hsmall, if_pos forbidden]
    rfl

end Sys2Proof.Proofs

/-! # Baton messages: how they come in, and what they do at their stride (R233, R235-R237, R321-R323) -/

namespace Sys2Proof.Proofs

open Sys2Proof Sys2Proof.Machine Sys2Proof.Certs Sys2Proof.Laws

/-! ## A message of the relay port -/

theorem heard_modRelay (m : List Byte) (f : RelaySt → RelaySt) (e : Engine) :
    heard m (modRelay f e) = modRelay f (heard m e) := by
  unfold heard count
  split <;> rfl

/-- A message that fits the host's credits takes them for the time it is acted on (R321). -/
theorem relayTake_credited {m : List Byte} {e : Engine} (h : flitsOf m ≤ e.relay.crd) :
    relayTake m e = modRelay (fun r => { r with crd := r.crd + flitsOf m })
      (relayIn m (modRelay (fun r => { r with crd := r.crd - flitsOf m }) e)) :=
  if_neg (Nat.not_lt.2 h)

/-- Credits taken and given back are as before. -/
theorem modRelay_credits {n : Nat} {e : Engine} (h : n ≤ e.relay.crd) :
    modRelay (fun r => { r with crd := r.crd + n }) (modRelay (fun r => { r with crd := r.crd - n }) e) = e := by
  simp [modRelay, Nat.sub_add_cancel h]

/-- A peer whose messages carry the stamp epoch it is known by keeps its offset (R49). -/
theorem peerEpoch_known {src : U32} {ep : U16} {e : Engine} {i : Nat} {p : Peer} (hp : peerAt e src = some (i, p))
    (hep : p.epoch = ep) : peerEpoch src ep e = e := by
  unfold peerEpoch
  rw [hp]
  exact if_pos hep

section Message

variable {m pl : List Byte} {src : U32} {e : Engine} {i : Nat} {p : Peer}
  (hp : peerAt e src = some (i, p)) (hep : p.epoch = epochOf m)
include hp hep

/-- A Baton message of a present peer in its known stamp epoch is counted and waits for its stride (R41, R323), however many
credits the host holds. -/
theorem relayIn_baton (hon : relayOn e = true) (hok : relayOk e m = true) (hkind : byteAt m 1 = 4)
    (hsrc : BitVec.ofNat 32 (fieldAt m 4 4) = src) (hpl : (m.drop 32).take (fieldAt m 2 2) = pl) :
    relayIn m e = addExt (.baton src pl) (heard m e) := by
  obtain ⟨c, hc⟩ := count_frame 1 17 m.length e
  have hon' : relayOn (count 1 17 m.length e) = true := by rw [hc]; exact hon
  have hok' : relayOk (count 1 17 m.length e) m = true := by rw [hc]; exact hok
  have hp' : peerAt (count 1 17 m.length e) src = some (i, p) := by rw [hc]; exact hp
  calc relayIn m e = addExt (.baton src pl) (peerEpoch src (epochOf m) (heard m e)) := by
        simp [relayIn, heard, epochOf, hon', hok', hkind, hsrc, hpl, hp']
    _ = addExt (.baton src pl) (heard m e) := by rw [peerEpoch_known (e := heard m e) hp' hep]

theorem relayTake_baton (hm : IsMsg e m 4 src pl) : relayTake m e = addExt (.baton src pl) (heard m e) := by
  obtain ⟨hon, hok, hkind, hsrc, hpl, hcrd⟩ := hm
  have hcrd' : flitsOf m ≤ (addExt (.baton src pl) (heard m e)).relay.crd := by
    obtain ⟨c, hc⟩ := count_frame 1 17 m.length e
    rw [heard, hc]
    exact hcrd
  have noted := relayIn_baton (e := modRelay (fun r => { r with crd := r.crd - flitsOf m }) e) hp hep hon hok hkind
    hsrc hpl
  rw [relayTake_credited hcrd, noted, heard_modRelay]
  exact modRelay_credits hcrd'

end Message

/-- The five Baton messages are taken alike by the relay port. -/
theorem exec_batonMessage {s : State} {m : List Byte} {c : Instr} (hs : inService s.eng = true)
    (hc : c ∈ [Instr.offer m, .accept m, .refuse m, .complete m, .abort m]) :
    exec c s = goes s (relayTake m s.eng) := by
  have taken : onEng (relayTake m) s = goes s (relayTake m s.eng) := onEng_up hs
  simp only [List.mem_cons, List.not_mem_nil, or_false] at hc
  rcases hc with rfl | rfl | rfl | rfl | rfl <;> exact taken

/-! ## Timeouts (R236) -/

theorem exec_batonTimeout {s : State} (num : U32) (hs : inService s.eng = true) :
    exec (.batonTimeout num) s = goes s (opBatonTimeout num s.eng) := onEng_up hs

theorem opBatonTimeout_one {num : U32} {e : Engine} {b : Baton}
    (h : e.kv.batons.filter (fun x => x.num == num && batonOver e x) = [b]) : opBatonTimeout num e = batonAbort b e := by
  rw [opBatonTimeout, h]
  rfl

theorem opBatonTimeout_none {num : U32} {e : Engine} (h : ∀ x ∈ e.kv.batons, x.num = num → batonOver e x = false) :
    opBatonTimeout num e = e := by
  have notOver : e.kv.batons.filter (fun x => x.num == num && batonOver e x) = [] := by
    rw [List.filter_eq_nil_iff]
    intro x hx hover
    obtain ⟨hnum, hover⟩ := Bool.and_eq_true_iff.1 hover
    exact absurd hover (by simp [h x hx (eq_of_beq hnum)])
  rw [opBatonTimeout, notOver]
  rfl

/-! ## The end of a Baton that this engine offered -/

/-- The Baton `num` offered to `src` is no more, its end counted in a field of IDX_BSTAT, and its request changed by `f`. -/
def closeBaton (num src : U32) (hi lo slot : Nat) (f : Req → Req) (e : Engine) : Engine :=
  modReq slot f (bumpSat rIDX_BSTAT hi lo 1 (dropBaton true num src e))

section Close

variable {num src : U32} {hi lo slot : Nat} {f : Req → Req} {e : Engine}

theorem batonAt_closeBaton : batonAt (closeBaton num src hi lo slot f e) true num src = none := by
  show (e.kv.batons.filter (fun b => !isBaton true num src b)).find? (isBaton true num src) = none
  simp [List.find?_eq_none]

theorem reqAt_closeBaton_self {r : Req} (h : reqAt e slot = some r) :
    reqAt (closeBaton num src hi lo slot f e) slot = some (f r) := by
  rw [closeBaton, reqAt_modReq, if_pos rfl]
  exact congrArg (Option.map f) h

theorem reqAt_closeBaton_other {k : Nat} (h : k ≠ slot) : reqAt (closeBaton num src hi lo slot f e) k = reqAt e k := by
  rw [closeBaton, reqAt_modReq, if_neg h]
  rfl

theorem reg_closeBaton (p : Nat) :
    reg (closeBaton num src hi lo slot f e) p = reg (bumpSat rIDX_BSTAT hi lo 1 e) p := rfl

end Close

theorem batonAt_some {e : Engine} {sender : Bool} {num peer : U32} {b : Baton} (h : batonAt e sender num peer = some b) :
    b.sender = sender ∧ b.num = num ∧ b.peer = peer := by
  simpa [isBaton, and_assoc] using List.find?_some h

/-- A handed-off request runs on here when its Baton fails (R236). -/
def runsOn (r : Req) : Req := { r with e := { r.e with st := .running }, w := { r.w with baton := none } }

section Offered

variable {e : Engine} {num src : U32} {b : Baton} {r : Req} (hb : batonAt e true num src = some b)
  (hr : reqAt e b.slot = some r) (hst : r.e.st = .handedOff)
include hb hr hst

theorem batonFail_offered (hbaton : r.w.baton = some b.num.toNat) :
    batonFail b e = closeBaton num src 63 48 b.slot runsOn e := by
  obtain ⟨hsender, rfl, rfl⟩ := batonAt_some hb
  have kept : reqAt (bumpSat rIDX_BSTAT 63 48 1 (dropBaton true b.num b.peer e)) b.slot = some r := hr
  unfold batonFail
  simp only [hsender, kept, hst, hbaton, and_self, if_true]
  rfl

theorem completeIn_offered : completeIn src num e = closeBaton num src 15 0 b.slot
    (fun r => if terminal r.e.st then r else endRec .finished 4 0 (holdTo e) false r) e := by
  have kept : reqAt (bumpSat rIDX_BSTAT 15 0 1 (dropBaton true num src e)) b.slot = some r := hr
  unfold completeIn
  simp only [hb, kept, hst, if_true]
  rfl

end Offered

theorem completeIn_unknown {e : Engine} {num src : U32} (h : batonAt e true num src = none) :
    completeIn src num e = bumpSat rIDX_BSTAT 47 32 1 e := by
  rw [completeIn, h]

/-! ## What a message does at its stride, by its kind (R234) -/

section Kinds

variable {src : U32} {m : List Byte} {e : Engine}

theorem batonIn_offer (h : byteAt m 0 = 1) : batonIn src m e = offerIn src m e := by simp [batonIn, h]

theorem batonIn_refuse {b : Baton} (h : byteAt m 0 = 3)
    (hb : batonAt e true (BitVec.ofNat 32 (fieldAt m 4 4)) src = some b) : batonIn src m e = batonFail b e := by
  simp [batonIn, h, hb]

theorem batonIn_complete (h : byteAt m 0 = 4) :
    batonIn src m e = completeIn src (BitVec.ofNat 32 (fieldAt m 4 4)) e := by simp [batonIn, h]

theorem batonIn_abort {b : Baton} (h : byteAt m 0 = 5)
    (hb : e.kv.batons.filter (fun x => x.num == BitVec.ofNat 32 (fieldAt m 4 4) && x.peer == src) = [b]) :
    batonIn src m e = batonFail b e := by
  simp [batonIn, h, hb]

/-- A context that is not open takes no OFFER (R235). -/
theorem offerIn_notOpen (h : isOpen e (byteAt m 2) = false) :
    offerIn src m e = batonSend 3 1 (byteAt m 2) (BitVec.ofNat 32 (fieldAt m 4 4)) src e := by
  simp [offerIn, h]

end Kinds

/-- The body of a REFUSE: its header says nothing of the request. -/
theorem batonSend_refuse (code tc : Nat) (num peer : U32) (e : Engine) :
    batonSend 3 code tc num peer e = relaySend 4 peer (le 1 3 ++ le 1 code ++ le 1 tc ++ [0] ++ le 4 num.toNat
      ++ le 4 (myId e).toNat ++ le 4 peer.toNat ++ zeros 48) e := by
  have blank : le 4 0 ++ (le 4 0 ++ (le 4 (0 : U32).toNat ++ (zeros 4 ++ (le 8 (0 : U64).toNat
      ++ (le 8 (0 : U64).toNat ++ zeros 16))))) = zeros 48 := rfl
  simp only [batonSend, batonHeader, List.append_assoc, blank]

/-! ## The obligation -/

/-- Settles O52: messages wait by the laws of the relay port, and each kind that ends a Baton closes it in the same way. -/
theorem batonMessages : Obligations.BatonMessages := by
  unfold Obligations.BatonMessages
  refine ⟨fun s m pl src num b hs => ⟨fun i p hm hp hep => ⟨_, rfl, fun c hc => ?_⟩, fun hover => ?_, fun hover => ?_⟩,
    fun e src m b r => ⟨fun hkind hnone => ?_, fun hkind hopen => ?_, fun hb hr hst hbaton => ⟨fun hkind => ?_,
      fun hkind => ?_⟩⟩⟩
  · obtain ⟨c', hc'⟩ := count_frame 1 17 m.length s.eng
    rw [exec_batonMessage hs hc, relayTake_baton hp hep hm, addExt_frame, heard, hc']
  · rw [exec_batonTimeout num hs, opBatonTimeout_one hover]
  · rw [exec_batonTimeout num hs, opBatonTimeout_none hover]
    rfl
  · rw [batonIn_complete hkind, completeIn_unknown hnone]
  · rw [batonIn_offer hkind, offerIn_notOpen hopen, batonSend_refuse]
  · have failed : batonIn src m e = batonFail b e := by
      rcases hkind with hrefuse | ⟨habort, hone⟩
      · exact batonIn_refuse hrefuse hb
      · exact batonIn_abort habort hone
    refine ⟨_, rfl, ?_⟩
    rw [failed, batonFail_offered hb hr hst hbaton]
    exact ⟨batonAt_closeBaton, reqAt_closeBaton_self hr, fun _ => reqAt_closeBaton_other, rfl, reg_closeBaton⟩
  · refine ⟨_, endRec .finished 4 0 (holdTo e) false r, rfl, ?_⟩
    rw [batonIn_complete hkind, completeIn_offered hb hr hst]
    refine ⟨batonAt_closeBaton, ?_, rfl, rfl, rfl, fun _ => reqAt_closeBaton_other, rfl, reg_closeBaton⟩
    rw [reqAt_closeBaton_self hr]
    simp [terminal, hst]

end Sys2Proof.Proofs

/-! # Models, adapters and expert sets: what their packets do (R240-R243, R246, R251, R252, R255) -/

namespace Sys2Proof.Proofs

open Sys2Proof Sys2Proof.Machine Sys2Proof.Certs Sys2Proof.Laws

/-! ## A packet whose effect answers -/

/-- The next state of a packet of opcode `op` whose effect is `r`: its engine, with the reply of its status and RESULT. -/
def replied (s : State) (h : Hdr) (op : Nat) (r : Res) : Host.Outcome State Fault Refusal :=
  goes s (settled (reply h op r.status r.result r.eng))

@[simp] theorem replied_done (s : State) (h : Hdr) (op r : Nat) (e : Engine) :
    replied s h op (done r e) = answers s h op r e := rfl

@[simp] theorem replied_refuse (s : State) (h : Hdr) (op st : Nat) (e : Engine) :
    replied s h op (refuse st e) = goes s (settled (reply h op st 0 e)) := rfl

theorem kept_of_not_writesAnchor {cmd : Cmd} (hw : writesAnchor cmd = false) (tc : Nat) (r : Res) : kept cmd tc r = r := by
  simp [kept, hw]

/-- R420 lets a packet through that acts on no context, or on an open one. -/
theorem checkedEffect_passes {h : Hdr} {cmd : Cmd} {e : Engine}
    (hctx : freeOfContext cmd = true ∨ isOpen e h.target.toNat = true) (ord : List Nat) (late err : Bool) :
    checkedEffect ord h cmd late err e = kept cmd h.target.toNat (effect ord h cmd late err e) := by
  unfold checkedEffect
  rcases hctx with hfree | hopen
  · simp [hfree]
  · unfold isOpen at hopen
    split
    · rfl
    · split <;> simp_all

/-- The row of a packet that R420 lets through, writes no anchor and replies at once. -/
theorem row_replied {s : State} (hs : Free s) (i : Instr) {h : Hdr} {cmd : Cmd}
    (hctx : freeOfContext cmd = true ∨ isOpen s.eng h.target.toNat = true) (hw : writesAnchor cmd = false)
    (hl : ∀ st, repliesLater cmd st = false) :
    row i h cmd s = replied s h cmd.code (effect [h.ring.toNat, h.ridx.toNat] h cmd false false s.eng) := by
  obtain ⟨hup, hfree⟩ := hs
  rw [row_free hup hfree, applyNow, checkedEffect_passes hctx, kept_of_not_writesAnchor hw, hl]
  rfl

section Rows

variable {s : State} (hs : Free s) (h : Hdr)
include hs

theorem exec_modelRegister (desc : U64) (model : U8) : exec (.modelRegister h desc model) s
    = replied s h 0x20 (opModelRegister desc.toNat model.toNat false s.eng) :=
  row_replied hs (.modelRegister h desc model) (cmd := .modelRegister desc model) (.inl rfl) rfl fun _ => rfl

theorem exec_modelEvict (model : U8) : exec (.modelEvict h model) s = replied s h 0x21 (opModelEvict model.toNat s.eng) :=
  row_replied hs (.modelEvict h model) (cmd := .modelEvict model) (.inl rfl) rfl fun _ => rfl

variable {h} (hopen : isOpen s.eng h.target.toNat = true)
include hopen

theorem exec_adapterRegister (table : U64) (model : U8) (ad ver rank : U16) :
    exec (.adapterRegister h table model ad ver rank) s = replied s h 0x22
      (opAdapterRegister h.target.toNat table.toNat model.toNat ad.toNat ver.toNat rank.toNat s.eng) :=
  row_replied hs (.adapterRegister h table model ad ver rank) (cmd := .adapterRegister table model ad ver rank)
    (.inr hopen) rfl fun _ => rfl

theorem exec_adapterRetire (model : U8) (ad ver : U16) (force : U8) : exec (.adapterRetire h model ad ver force) s
    = replied s h 0x23 (opAdapterRetire h.target.toNat model.toNat ad.toNat ver.toNat force.toNat s.eng) :=
  row_replied hs (.adapterRetire h model ad ver force) (cmd := .adapterRetire model ad ver force) (.inr hopen) rfl
    fun _ => rfl

theorem exec_expertSet (mask : U64) (model : U8) (set : U16) : exec (.expertSet h mask model set) s
    = replied s h 0x24 (opExpertSet h.target.toNat mask.toNat model.toNat set.toNat s.eng) :=
  row_replied hs (.expertSet h mask model set) (cmd := .expertSet mask model set) (.inr hopen) rfl fun _ => rfl

end Rows

/-! ## MODEL_REGISTER (R240, R241) -/

theorem opModelRegister_new {addr model : Nat} {e : Engine} (hbad : badRange e addr 64 = false)
    (hver : byteAt (rd e addr 64) 4 = 4) (hok : modelOk (rd e addr 64) model = true)
    (hnew : tget? e.models model = none) :
    opModelRegister addr model false e
      = done model (adviceNow { e with models := tset e.models model (parseModel (rd e addr 64)) }) := by
  simp [opModelRegister, hbad, hver, hok, hnew]

/-! ## MODEL_EVICT: what goes with a model (R243) -/

section Models

variable (e : Engine)

/-- A pass of operations none of which touches the hot set leaves it as it was. -/
theorem foldl_models {α : Type} {f : Engine → α → Engine} (hf : ∀ e x, (f e x).models = e.models) (l : List α) :
    (l.foldl f e).models = e.models := by
  induction l generalizing e with
  | nil => rfl
  | cons x l ih => rw [List.foldl_cons, ih, hf]

theorem dropDrafts_models (model : Nat) : (dropDrafts model e).models = e.models := by
  refine foldl_models e (fun e p => ?_) _
  cases p.2.w.draft.round <;> rfl

theorem freeLoc_models (loc id : Nat) : (freeLoc loc id e).models = e.models := by
  unfold freeLoc
  split
  · rfl
  · split <;> rfl

theorem setNode_models (n : Nat) (x : Node) : (setNode n x e).models = e.models := by simp [setNode]

/-- A node taken out of its list changes one node at most. -/
theorem unlinkNode_models (n : Nat) : (unlinkNode n e).models = e.models := by
  unfold unlinkNode
  repeat' split
  all_goals simp only [setNode_models]

theorem removeTree_models (n : Nat) : (removeTree n e).1.models = e.models := by
  refine (foldl_models _ (fun e m => ?_) _).trans (unlinkNode_models e n)
  split
  · exact freeLoc_models e _ _
  · rfl

theorem dropNodes_models (p : Node → Bool) : (dropNodes p e).models = e.models := by
  refine foldl_models e (fun e n => ?_) _
  split
  · exact removeTree_models e n
  · rfl

end Models

theorem tget?_storeDrop_none {p : Nat} {t : Table Plan} (h : tget? t (planKey p) = none) (ps : List Nat) :
    tget? (storeDrop ps t) (planKey p) = none := by
  induction ps generalizing t with
  | nil => exact h
  | cons q ps ih =>
    refine ih (t := tdel t (planKey q)) ?_
    by_cases hq : planKey p = planKey q
    · rw [hq, tget?_tdel_self]
    · rw [tget?_tdel_ne t hq, h]

/-- The plans dropped from the store are there no more. -/
theorem tget?_storeDrop {ps : List Nat} {p : Nat} (hp : p ∈ ps) (t : Table Plan) :
    tget? (storeDrop ps t) (planKey p) = none := by
  induction ps generalizing t with
  | nil => cases hp
  | cons q ps ih =>
    rcases List.mem_cons.1 hp with rfl | hp
    · exact tget?_storeDrop_none (tget?_tdel_self t _) ps
    · exact ih hp _

/-- Sets that satisfy `p` have no owner after they lost it. -/
theorem owner_of_mem_xsetDisown {p : Nat → XSet → Bool} {e : Engine} {x : Nat × XSet}
    (hp : ∀ y, p x.1 y = true) (hx : x ∈ (xsetDisown p e).xsets) : x.2.owner = none := by
  obtain ⟨y, -, rfl⟩ := List.mem_map.1 hx
  split
  · rfl
  next hy =>
    rw [if_neg hy] at hp
    exact absurd (hp y.2) hy

/-- The engine without a model: its drafts, index nodes, plans and adapters gone, its expert sets without an owner; the
advice is not computed anew yet. -/
def evicted (model : Nat) (m : Model) (e : Engine) : Engine :=
  let e := dropNodes (fun n => n.model == model) (dropDrafts model e)
  xsetDisown (fun k _ => k / 65536 == model) { e with
    models := tdel e.models model, images := tdel e.images model,
    plans := { e.plans with store := storeDrop m.plans e.plans.store },
    aslots := e.aslots.filter (fun a => a.2.model != model) }

theorem opModelEvict_unused {model : Nat} {m : Model} {e : Engine} (hm : tget? e.models model = some m)
    (hu : modelUsed e model = false) : opModelEvict model e = done 0 (adviceNow (evicted model m e)) := by
  simp only [opModelEvict, hm, hu]
  rfl

section Evicted

variable (model : Nat) (m : Model) (e : Engine)

theorem evicted_models : (evicted model m e).models = tdel e.models model := by
  have kept : (dropNodes (fun n => n.model == model) (dropDrafts model e)).models = e.models :=
    (dropNodes_models _ _).trans (dropDrafts_models e model)
  exact congrArg (fun t => tdel t model) kept

theorem planAt_evicted {p : Nat} (hp : p ∈ m.plans) : planAt (evicted model m e) p = none := tget?_storeDrop hp _

variable {model m e}

theorem model_ne_of_mem_evicted_aslots {a : Nat × ASlot} (ha : a ∈ (evicted model m e).aslots) : a.2.model ≠ model := by
  simpa using (List.mem_filter.1 ha).2

theorem owner_of_mem_evicted_xsets {x : Nat × XSet} (hx : x ∈ (evicted model m e).xsets) (hk : x.1 / 65536 = model) :
    x.2.owner = none :=
  owner_of_mem_xsetDisown (fun _ => beq_iff_eq.2 hk) hx

end Evicted

/-! ## ADAPTER_REGISTER (R246) -/

theorem opAdapterRegister_new {tc addr model ad ver rank n : Nat} {m : Model} {e : Engine}
    (hm : tget? e.models model = some m) (hvar : m.variant = 1)
    (hmine : ∀ a ∈ adapterSlots e model ad, a.2.tc = tc ∧ a.2.version < ver) (hroom : (adapterSlots e model ad).length < 4)
    (hn : firstFree (tkeys e.aslots) 0 4096 = some n) :
    opAdapterRegister tc addr model ad ver rank e = done n { e with
      aslots := tset (e.aslots.map (fun a => if a.2.model = model ∧ a.2.adapter = ad
        then (a.1, { a.2 with retired := true }) else a)) n {
          retired := false, resident := true, tc := tc, model := model, adapter := ad, version := ver,
          rank := rank, table := addr } } := by
  have older : (adapterSlots e model ad).any (fun a => a.2.tc != tc || decide (ver ≤ a.2.version)) = false := by
    rw [List.any_eq_false]
    intro a ha
    obtain ⟨htc, hver⟩ := hmine a ha
    simp [htc, hver]
  simp [opAdapterRegister, hm, hvar, older, hn, Nat.not_le.2 hroom]

/-! ## ADAPTER_RETIRE (R251, R252) -/

/-- The slot holds this version of the tenant's adapter, LIVE or RETIRED. -/
def HoldsVersion (tc model ad ver : Nat) (a : ASlot) : Prop :=
  a.tc = tc ∧ a.model = model ∧ a.adapter = ad ∧ a.version = ver

section Retire

variable {tc model ad ver n : Nat} {e : Engine}

theorem holdsVersion_iff {a : ASlot} : (a.tc == tc && a.model == model && a.adapter == ad && a.version == ver) = true
    ↔ HoldsVersion tc model ad ver a := by
  simp [HoldsVersion, and_assoc]

theorem versionSlot_eq_none_iff :
    versionSlot e tc model ad ver = none ↔ ∀ x ∈ e.aslots, ¬ HoldsVersion tc model ad ver x.2 := by
  simp only [versionSlot, Option.map_eq_none_iff, List.find?_eq_none, holdsVersion_iff]

/-- A slot that holds the named version stands in the table. -/
theorem mem_of_versionSlot (h : versionSlot e tc model ad ver = some n) :
    ∃ a, (n, a) ∈ e.aslots ∧ HoldsVersion tc model ad ver a := by
  obtain ⟨⟨_, a⟩, hx, rfl⟩ := Option.map_eq_some_iff.1 h
  have holds := List.find?_some hx
  exact ⟨a, List.mem_of_find?_eq_some hx, holdsVersion_iff.1 holds⟩

theorem opAdapterRetire_unheld (force : Nat) (h : versionSlot e tc model ad ver = none) :
    opAdapterRetire tc model ad ver force e = refuse sNO_SUCH_OBJECT e := by
  simp [opAdapterRetire, h]

theorem opAdapterRetire_plain (h : versionSlot e tc model ad ver = some n) :
    opAdapterRetire tc model ad ver 0 e
      = done 0 { e with aslots := tmod e.aslots n (fun a => { a with retired := true }) } := by
  simp [opAdapterRetire, h]

/-- A request that is due for a re-pin from slot `n`: pinned to it, live, and not treated by fallback. -/
theorem repinSet_iff {r : Req} :
    repinSet r n = true ↔ r.w.aslot = some n ∧ terminal r.e.st = false ∧ r.e.fbk = false := by
  simp [repinSet, and_assoc]

/-- `r`, marked for a re-pin when the retirement of slot `n` asks for one. -/
def markRepin (n : Nat) (r : Req) : Req :=
  if r.w.aslot = some n ∧ terminal r.e.st = false ∧ r.e.fbk = false then { r with w := { r.w with repinDue := true } }
  else r

theorem opAdapterRetire_forced {force : Nat} (hforce : force ≠ 0) (h : versionSlot e tc model ad ver = some n) :
    opAdapterRetire tc model ad ver force e =
      { status := if ((allReqs e).filter (fun r => repinSet r n)).length = 0 then 0 else sOK_FLAGGED
        result := ((allReqs e).filter (fun r => repinSet r n)).length
        eng := { e with
          aslots := tmod e.aslots n (fun a => { a with retired := true })
          rq := { e.rq with
            slots := e.rq.slots.map (fun p => (p.1, markRepin n p.2))
            parked := e.rq.parked.map (fun p => { p with req := markRepin n p.req }) } } } := by
  simp only [opAdapterRetire, h, hforce, if_false, repinSet_iff, markRepin]
  rfl

end Retire

/-- A change of the entries at `n`, whose number is written as `n`. -/
theorem tmod_eq_map {α : Type} (t : Table α) (n : Nat) (f : α → α) :
    tmod t n f = t.map (fun x => if x.1 = n then (n, f x.2) else x) :=
  List.map_congr_left fun x _ => by
    split
    next hx => rw [hx]
    next => rfl

/-! ## EXPERT_SET (R255) -/

theorem opExpertSet_own {tc addr model set : Nat} {m : Model} {e : Engine} (hm : tget? e.models model = some m)
    (hvar : m.variant = 2) (hset : set < m.nset)
    (hown : ∀ x, tget? e.xsets (xsetKey model set) = some x → x.owner = none ∨ x.owner = some tc) :
    opExpertSet tc addr model set e = done set (xsetWrite (xsetKey model set) { owner := some tc, addr := addr }
      { e with xsets := tset e.xsets (xsetKey model set) { owner := some tc, addr := addr } }) := by
  simp only [opExpertSet, hm, hvar, Nat.not_le.2 hset]
  cases hx : tget? e.xsets (xsetKey model set) with
  | none => rfl
  | some x =>
    rcases hown x hx with h | h
    · simp [h]
    · simp [h]

/-! ## The obligations -/

/-- Settles O29: each packet is let through and replies; the laws above say what its effect is. -/
theorem modelsAdaptersAndExpertSets : Obligations.ModelsAdaptersAndExpertSets := by
  unfold Obligations.ModelsAdaptersAndExpertSets
  refine ⟨fun s h desc model hs => ⟨fun hbad hver hok hnew => ?_, fun m hm hunused => ?_⟩,
    fun s h table model ad ver rank n hs hopen => ⟨fun m hm hvar hmine hroom hn => ?_, fun hn => ?_⟩,
    fun s h mask model set m hs hopen hm hvar hset hown => ?_⟩
  · rw [exec_modelRegister hs, opModelRegister_new hbad hver hok hnew, replied_done]
  · refine ⟨evicted model.toNat m s.eng, ?_, ?_, fun k hk => ?_, fun p => planAt_evicted model.toNat m s.eng,
      fun a => model_ne_of_mem_evicted_aslots, fun x => owner_of_mem_evicted_xsets⟩
    · rw [exec_modelEvict hs, opModelEvict_unused hm hunused, replied_done]
    · rw [evicted_models, tget?_tdel_self]
    · rw [evicted_models, tget?_tdel_ne _ hk]
  · rw [exec_adapterRegister hs hopen, opAdapterRegister_new hm hvar hmine hroom hn, replied_done]
  · rw [exec_adapterRetire hs hopen, opAdapterRetire_forced (force := (1 : U8).toNat) (by decide) hn]
    rfl
  · rw [exec_expertSet hs hopen, opExpertSet_own hm hvar hset hown, replied_done]

/-- Settles O30: the first slot that holds the version is the one named, and no other changes. -/
theorem adapterRetireOfANamedVersion : Obligations.AdapterRetireOfANamedVersion := by
  unfold Obligations.AdapterRetireOfANamedVersion
  refine fun s h model ad ver hs hopen => ⟨fun hnone => ?_, fun ⟨x, hx, hheld⟩ => ?_⟩
  · rw [exec_adapterRetire hs hopen, opAdapterRetire_unheld _ (versionSlot_eq_none_iff.2 hnone)]
    rfl
  · cases hn : versionSlot s.eng h.target.toNat model.toNat ad.toNat ver.toNat with
    | none => exact absurd hheld (versionSlot_eq_none_iff.1 hn x hx)
    | some n =>
      obtain ⟨a, ha, hholds⟩ := mem_of_versionSlot hn
      refine ⟨n, a, ha, hholds, ?_⟩
      rw [exec_adapterRetire hs hopen, show (0 : U8).toNat = 0 from rfl, opAdapterRetire_plain hn, replied_done,
        tmod_eq_map]

end Sys2Proof.Proofs

/-! # What the shared operations leave of an engine

Writing tier-1 memory, queueing status entries, reporting faults, moving blocks and walking the index change little of
  an
engine besides the fields they are about. A property of engines that these changes keep,
  the operations keep: one lemma per
operation, in the order of the model's files. -/

namespace Sys2Proof.Proofs

open Sys2Proof Sys2Proof.Machine Sys2Proof.Certs Sys2Proof.Laws

/-- A property that does not go by registers, sampled events, faults, ports, counters, traces,
snapshots and free values,
and that memory writes and changes of a ring keep. -/
structure Kept (P : Engine → Prop) : Prop where
  wr : ∀ {e : Engine} {a : Nat} {bs : List Byte}, P e → P (wr a bs e)
  ring : ∀ {e : Engine} {tc : Nat} {f : TRing → TRing}, P e → P (modRing tc f e)
  upd : ∀ {e : Engine} {regs sched flt port cnt trace hang free}, P e →
    P { e with regs, sched, flt, port, cnt, trace, hang, free }

/-- One that does not go by power, requests, the KV store, lanes and captures either. -/
structure KeptKv (P : Engine → Prop) : Prop extends Kept P where
  obj : ∀ {e : Engine} {pwr rq kv lanes cap}, P e → P { e with pwr, rq, kv, lanes, cap }

section

variable {P : Engine → Prop} {e : Engine} (hP : Kept P)
include hP

/-! ## How an operation is put together -/

section Choice

variable {c : Prop} [Decidable c]

omit hP in
theorem Kept.ite (_ : Kept P) {a b : Engine} (ha : P a) (hb : P b) : P (if c then a else b) := by
  split
  · exact ha
  · exact hb

/-- One more operation, or none. -/
theorem Kept.when {a : Engine} (h : P e) (ha : P e → P a) : P (if c then a else e) := hP.ite (ha h) h

omit hP in
theorem Kept.ite_fst (_ : Kept P) {α : Type} {a b : Engine × α} (ha : P a.1) (hb : P b.1) : P (if c then a else b).1
    := by
  split
  · exact ha
  · exact hb

omit hP in
theorem Kept.ite_snd (_ : Kept P) {α : Type} {a b : α × Engine} (ha : P a.2) (hb : P b.2) : P (if c then a else b).2
    := by
  split
  · exact ha
  · exact hb

end Choice

omit hP in
theorem Kept.of_fst (_ : Kept P) {α : Type} {p : Engine × α} {a : α} (heq : p = (e, a)) (h : P p.1) : P e := by
  rw [heq] at h
  exact h

omit hP in
theorem Kept.foldl (_ : Kept P) {α : Type} {f : Engine → α → Engine} (hf : ∀ e x,
    P e → P (f e x)) (h : P e) {l : List α} :
    P (l.foldl f e) :=
  List.foldlRecOn l f h fun b hb x _ => hf b x hb

/-! ## Memory, counters, status rings, faults and the manifest -/

theorem wr_kept {a : Nat} {bs : List Byte} (h : P e) : P (wr a bs e) := hP.wr h
theorem wrN_kept {a n v : Nat} (h : P e) : P (wrN a n v e) := wr_kept hP h
theorem setReg_kept {off : Nat} {v : U64} (h : P e) : P (setReg off v e) := hP.upd h
theorem setRegF_kept {off hi lo x : Nat} (h : P e) : P (setRegF off hi lo x e) := hP.upd h
theorem bumpSat_kept {off hi lo n : Nat} (h : P e) : P (bumpSat off hi lo n e) := hP.upd h

theorem bumpOpen_kept {off hi lo n : Nat} (h : P e) : P (bumpOpen off hi lo n e) :=
  hP.ite (setRegF_kept hP h) (hP.upd (setRegF_kept hP h))

theorem takeFree_kept (h : P e) : P (takeFree e).2 := hP.upd h
theorem openU32_kept {n : Nat} (h : P e) : P (openU32 n e).2 := hP.ite_snd h (takeFree_kept hP h)
theorem addCnt_kept {k n : Nat} (h : P e) : P (addCnt k n e) := hP.upd h
theorem count_kept {g i n : Nat} (h : P e) : P (count g i n e) := hP.ite h (addCnt_kept hP h)
theorem tcount_kept {tc i n : Nat} (h : P e) : P (tcount tc i n e) := hP.ite h (addCnt_kept hP h)
theorem modRing_kept {tc : Nat} {f : TRing → TRing} (h : P e) : P (modRing tc f e) := hP.ring h

theorem memIssue_kept {r : MemReq} (h : P e) : P (memIssue r e) := by
  unfold memIssue
  dsimp only
  split <;> exact hP.upd h

theorem memRdIssue_kept {port a n : Nat} {who : MemWho} (h : P e) : P (memRdIssue port a n who e) :=
  hP.foldl (fun _ _ h => memIssue_kept hP h) h

theorem msgQueue_kept {m : Msg} (h : P e) : P (msgQueue m e) := hP.upd h

theorem raiseVec_kept {v : VecId} (h : P e) : P (raiseVec v e) :=
  hP.ite h (hP.ite (setReg_kept hP h) (msgQueue_kept hP h))

theorem tracePush_kept {ty : Nat} {r : List Byte} (h : P e) : P (tracePush ty r e) :=
  hP.ite h (hP.ite (hP.upd h) (bumpOpen_kept hP (hP.upd h)))

theorem srWrite_kept {tc : Nat} {n : StEntry} (h : P e) : P (srWrite tc n e) :=
  memIssue_kept hP (modRing_kept hP (wr_kept hP h))

theorem srDrain_kept {tc n : Nat} (h : P e) : P (srDrain tc n e) := by
  induction n generalizing e with
  | zero => exact h
  | succ n ih =>
    unfold srDrain
    split
    · exact h
    · exact hP.ite (ih (srWrite_kept hP (modRing_kept hP h))) h

theorem srFlush_kept {tc : Nat} (h : P e) : P (srFlush tc e) :=
  hP.ite (srDrain_kept hP (modRing_kept hP (srDrain_kept hP h))) (srDrain_kept hP h)

theorem srStall_kept {tc : Nat} (h : P e) : P (srStall tc e) := hP.ite (setRegF_kept hP h) h

theorem stPush_kept {tc : Nat} {n : StEntry} (h : P e) : P (stPush tc n e) :=
  hP.ite h (hP.ite (setRegF_kept hP (modRing_kept hP h)) (srStall_kept hP (srFlush_kept hP (modRing_kept hP h))))

theorem notice_kept {tc status result target : Nat} (h : P e) : P (notice tc status result target e) :=
  stPush_kept hP h

theorem reply_kept {hd : Hdr} {op status result : Nat} (h : P e) : P (reply hd op status result e) :=
  stPush_kept hP h

theorem opComplete_kept {hd : Hdr} (h : P e) : P (opComplete hd e) := notice_kept hP h
theorem opCompleteNoCtx_kept {hd : Hdr} (h : P e) : P (opCompleteNoCtx hd e) := opComplete_kept hP h
theorem hangSnap_kept {cause q : Nat} (h : P e) : P (hangSnap cause q e) := hP.ite (hP.upd h) (hP.upd h)

theorem hangAll_kept {cause : Nat} (h : P e) : P (hangAll cause e) :=
  hangSnap_kept hP (hangSnap_kept hP (hangSnap_kept hP (hangSnap_kept hP h)))

theorem holdWatch_kept {f : Engine → Engine} (hf : ∀ e, P e → P (f e)) (h : P e) :
    P (holdWatch f e) :=
  hP.ite (hangAll_kept hP (hf _ h)) (hf _ h)

theorem faultIrq_kept {c : FaultClass} {scope : Nat} (h : P e) : P (faultIrq c scope e) :=
  hP.ite h (hP.ite (hP.upd h) (raiseVec_kept hP (hP.upd h)))

theorem recClose_kept {k : Nat} {r : FRec} (h : P e) : P (recClose k r e) := tracePush_kept hP (hP.upd h)

theorem recExpire_kept {c : FaultClass} {root : HAddr} (h : P e) : P (recExpire c root e) :=
  hP.foldl (fun _ _ h => recClose_kept hP h) h

theorem faultRecord_kept {c : FaultClass} {tc : U8} {scope : Nat} {root reporter : HAddr} {detail : U64} {fstr :
    Stride} (h : P e) : P (faultRecord c tc scope root reporter detail fstr e) := by
  unfold faultRecord
  dsimp only
  split
  · exact hP.upd (recExpire_kept hP h)
  · split
    · exact bumpSat_kept hP (recExpire_kept hP h)
    · exact faultIrq_kept hP (tracePush_kept hP (bumpSat_kept hP (hP.ite (hP.upd (recExpire_kept hP h)) (hP.upd
        (recExpire_kept hP h)))))

theorem addExt_kept {x : ExtEv} (h : P e) : P (addExt x e) := hP.upd h

theorem faultContain_kept {c : FaultClass} {tc : U8} {obj : FaultObj} {scope : Nat} (h : P e) :
    P (faultContain c tc obj scope e) := by
  unfold faultContain
  split
  · exact h
  · exact addExt_kept hP h
  · exact hP.upd h

theorem faultAt_kept {c : FaultClass} {tc : U8} {obj : FaultObj} {root reporter : HAddr} {detail : U64} {fstr :
    Stride} {afterWake : Bool} (h : P e) : P (faultAt c tc obj root reporter detail fstr afterWake e) := by
  unfold faultAt
  extract_lets scope e1 e2 e3
  have h2 : P e2 := by
    unfold e2
    split
    · exact count_kept hP (count_kept hP (bumpOpen_kept hP h))
    · exact count_kept hP (count_kept hP (bumpOpen_kept hP h))
    · exact count_kept hP (count_kept hP (bumpOpen_kept hP h))
    · exact count_kept hP (count_kept hP (bumpOpen_kept hP h))
    · exact count_kept hP (count_kept hP (bumpOpen_kept hP h))
    · exact count_kept hP (bumpOpen_kept hP h)
  split
  · exact holdWatch_kept hP (fun _ h => hP.upd h) (hP.ite h2 (faultRecord_kept hP h2))
  · exact hP.ite (holdWatch_kept hP (fun _ h => hP.upd h) (hP.ite h2 (faultRecord_kept hP h2))) (hP.ite h2
      (faultRecord_kept hP h2))
  · exact hP.ite h2 (faultRecord_kept hP h2)
  · exact hP.ite h2 (faultRecord_kept hP h2)
  · exact faultContain_kept hP (hP.ite h2 (faultRecord_kept hP h2))

theorem fault_kept {c : FaultClass} {tc : U8} {obj : FaultObj} {root reporter : HAddr} {detail : U64} (h : P e) :
    P (fault c tc obj root reporter detail e) :=
  faultAt_kept hP h

theorem setMp_kept {q : Nat} {p : MpPort} (h : P e) : P (setMp q p e) := hP.upd h
theorem mpFlush_kept {q : Nat} (h : P e) : P (mpFlush q e) := hP.upd h

theorem mpPush_kept {q : Nat} {us : List MpUnit} (h : P e) : P (mpPush q us e) :=
  hP.ite h (mpFlush_kept hP (setMp_kept hP h))

theorem mpRecords_kept {q : Nat} {copy : Bool} {rs : List (List Byte)} (h : P e) :
    P (mpRecords q copy rs e) :=
  hP.ite (hP.foldl (fun _ _ h => tracePush_kept hP h) (mpPush_kept hP h)) (mpPush_kept hP h)

end

section

variable {P : Engine → Prop} {e : Engine} (hP : KeptKv P)
include hP

/-! ## Lanes, requests, the KV store and what follows a reply -/

theorem setLane_kept {l : Nat} {x : Lane} (h : P e) : P (setLane l x e) := hP.obj h

theorem laneOrderAt_kept {istr : Stride} {l op tc : Nat} {region pred : U32} (h : P e) :
    P (laneOrderAt istr l op tc region pred e) := by
  unfold laneOrderAt
  exact mpRecords_kept hP.toKept (setLane_kept hP (hP.obj h))

theorem setReq_kept {slot : Nat} {r : Req} (h : P e) : P (setReq slot r e) := hP.obj h
theorem modEng_kept {slot : Nat} {f : EngRec → EngRec} (h : P e) : P (modEng slot f e) := hP.obj h
theorem modWork_kept {slot : Nat} {f : Work → Work} (h : P e) : P (modWork slot f e) := hP.obj h
theorem bumpGen_kept {slot : Nat} (h : P e) : P (bumpGen slot e) := hP.ite h (hP.obj h)
theorem dirClear_kept {slot : Nat} (h : P e) : P (dirClear slot e) := wr_kept hP.toKept h

theorem placeReq_kept {slot : Nat} {r : Req} (h : P e) : P (placeReq slot r e) :=
  dirClear_kept hP (setReq_kept hP h)

theorem spillWrite_kept {p : Parked} (h : P e) : P (spillWrite p e) := wr_kept hP.toKept h
theorem unpark_kept {p : Parked} (h : P e) : P (unpark p e) := hP.obj h

theorem modParked_kept {entry : Nat} {f : Req → Req} (h : P e) : P (modParked entry f e) := by
  unfold modParked
  dsimp only
  split
  · exact spillWrite_kept hP (hP.obj h)
  · exact hP.obj h

theorem modKv_kept {f : KvSt → KvSt} (h : P e) : P (modKv f e) := hP.obj h
theorem freeBlk_kept {b : Nat} (h : P e) : P (freeBlk b e) := hP.obj h
theorem freeTier_kept {tier id : Nat} (h : P e) : P (freeTier tier id e) := hP.obj h

theorem freeLoc_kept {loc id : Nat} (h : P e) : P (freeLoc loc id e) :=
  hP.ite (freeBlk_kept hP h) (hP.ite h (freeTier_kept hP h))

theorem setNode_kept {n : Nat} {x : Node} (h : P e) : P (setNode n x e) := wr_kept hP.toKept (modKv_kept hP h)

theorem modNode_kept {n : Nat} {f : Node → Node} (h : P e) : P (modNode n f e) := by
  unfold modNode
  split
  · exact setNode_kept hP h
  · exact h

theorem delNode_kept {n : Nat} (h : P e) : P (delNode n e) := wr_kept hP.toKept (modKv_kept hP h)

theorem unlinkNode_kept {n : Nat} (h : P e) : P (unlinkNode n e) := by
  unfold unlinkNode
  split
  · exact h
  · split
    · exact h
    · split
      · exact h
      · refine hP.ite (setNode_kept hP h) ?_
        split
        · exact setNode_kept hP h
        · exact h

theorem nodeOrders_kept {n : Nat} {x : Node} (h : P e) : P (nodeOrders n x e) := hP.obj h

theorem removeTree_kept {n : Nat} (h : P e) : P (removeTree n e).1 := by
  unfold removeTree
  refine hP.foldl (fun e x h => ?_) (unlinkNode_kept hP h)
  split
  · exact delNode_kept hP (nodeOrders_kept hP (freeLoc_kept hP h))
  · exact h

theorem incRef_kept {n : Nat} (h : P e) : P (incRef n e) := modNode_kept hP h
theorem takenMark_kept {n : Nat} (h : P e) : P (takenMark n e) := hP.obj h

theorem evictOne_kept {e e' : Engine} (h : P e) (heq : evictOne e = some e') : P e' := by
  unfold evictOne at heq
  split at heq <;> cases heq
  exact count_kept hP.toKept (bumpOpen_kept hP.toKept (removeTree_kept hP h))

theorem allocBlk_kept {x : Nat × Engine} (h : P e) (heq : allocBlk e = some x) : P x.2 := by
  unfold allocBlk at heq
  dsimp only at heq
  split at heq
  · cases heq
    exact hP.obj h
  · split at heq
    · cases heq
    · rename_i hev
      split at heq <;> cases heq
      exact hP.obj (evictOne_kept hP h hev)

theorem ensurePage_kept {slot k : Nat} {e e' : Engine} (h : P e) (heq : ensurePage slot k e = some e') :
    P e' := by
  unfold ensurePage at heq
  split at heq
  · cases heq
  · split at heq
    · exact Option.some.inj heq ▸ h
    · split at heq
      · cases heq
      · exact Option.some.inj heq ▸ wrN_kept hP.toKept (wr_kept hP.toKept (modWork_kept hP (modKv_kept hP h)))

theorem setEntry_kept {slot k : Nat} {x : BtEntry} (h : P e) : P (setEntry slot k x e) := by
  unfold setEntry
  split
  · exact h
  · extract_lets e1 tb tb e2
    have h1 : P e1 := by
      unfold e1
      split
      · exact hP.ite (bumpGen_kept hP h) h
      · exact h
    split
    · exact wrN_kept hP.toKept (modWork_kept hP h1)
    · exact modWork_kept hP h1

theorem ordDrain_kept {n : Nat} (h : P e) : P (ordDrain n e) := by
  induction n generalizing e with
  | zero => exact h
  | succ n ih =>
    unfold ordDrain
    split
    · exact h
    · refine hP.ite (ih (setReg_kept hP.toKept ?_)) h
      split
      · exact wr_kept hP.toKept (modKv_kept hP h)
      · exact modKv_kept hP h

theorem ordFlush_kept (h : P e) : P (ordFlush e) := ordDrain_kept hP h

theorem issueOrder_kept {o : Order} (h : P e) : P (issueOrder o e) :=
  ordFlush_kept hP (tcount_kept hP.toKept (modKv_kept hP h))

theorem kvReadyCheck_kept {slot : Nat} (h : P e) : P (kvReadyCheck slot e) := by
  unfold kvReadyCheck
  split
  · exact hP.ite (modWork_kept hP h) h
  · exact h

theorem freePriv_kept {slot k : Nat} {x : BtEntry} (h : P e) : P (freePriv slot k x e) :=
  hP.ite h (freeLoc_kept hP h)

theorem dropSweep_kept (h : P e) : P (dropSweep e) := by
  unfold dropSweep
  refine hP.foldl (fun e x h => ?_) h
  split
  · exact hP.ite (removeTree_kept hP h) (modNode_kept hP h)
  · exact h

theorem walkTake_kept {slot k n : Nat} {r : Req} {e e' : Engine} (h : P e)
    (heq : walkTake slot k n r e = some e') : P e' := by
  unfold walkTake at heq
  split at heq
  · rename_i hpage
    split at heq
    · cases heq
      exact setEntry_kept hP (ensurePage_kept hP h hpage)
    · split at heq
      · cases heq
      · rename_i hblk
        cases heq
        exact issueOrder_kept hP (setEntry_kept hP (allocBlk_kept hP (ensurePage_kept hP h hpage) hblk))
  · cases heq

theorem walkGo_kept {slot k : Nat} {r : Req} {old : Table Node} {ns : List Nat} (h : P e) :
    P (walkGo slot r old ns k e).1 := by
  induction ns generalizing k e with
  | nil => exact h
  | cons n ns ih =>
    unfold walkGo
    split
    · rename_i heq
      exact ih (walkTake_kept hP h heq)
    · exact hP.foldl (fun _ _ h => modNode_kept hP h) h

theorem privGo_kept {slot n k : Nat} {r : Req} {old : List BtEntry} (h : P e) :
    P (privGo slot r old n k e).1 := by
  induction n generalizing k e with
  | zero => exact h
  | succ n ih =>
    unfold privGo
    split
    · split
      · split
        · exact h
        · rename_i hpage
          split
          · exact h
          · rename_i hblk
            exact ih (issueOrder_kept hP (setEntry_kept hP (allocBlk_kept hP (ensurePage_kept hP h hpage) hblk)))
      · exact h
    · exact h

theorem walkApply_kept {slot n : Nat} {resume : Bool} (h : P e) : P (walkApply slot n resume e) := by
  unfold walkApply
  split
  · exact h
  · extract_lets n hs e1 pres old
    split
    extract_lets e2 nodes
    have h2 : P e2 := bumpOpen_kept hP.toKept (hP.when h (fault_kept hP.toKept))
    split
    rename_i e3 l cut hgo
    have h3 : P e3 := hP.of_fst hgo (walkGo_kept hP (hP.foldl (fun _ _ h => incRef_kept hP h) h2))
    extract_lets e4 e5
    have h5 : P e5 := hP.when (hP.foldl (fun _ _ h => takenMark_kept hP h) h3) (bumpOpen_kept hP.toKept)
    split
    rename_i e6 kEnd hpriv
    have h6 : P e6 := hP.of_fst hpriv (hP.ite_fst (privGo_kept hP h5) h5)
    exact kvReadyCheck_kept hP (bumpOpen_kept hP.toKept (count_kept hP.toKept (tcount_kept hP.toKept (modEng_kept hP
      ((modWork_kept hP)
      (hP.when (hP.when h6 fun h => hP.foldl (fun _ _ h => hP.when h (freePriv_kept hP)) h)
        fun h => hP.foldl (fun _ _ h => hP.when h (setEntry_kept hP)) h))))))

theorem readsForget_kept {who : MemWho} (h : P e) : P (readsForget who e) := hP.upd h

theorem winStart_kept {slot : Nat} (h : P e) : P (winStart slot e) := by
  unfold winStart
  split
  · exact hP.ite (memRdIssue_kept hP.toKept (readsForget_kept hP h)) (readsForget_kept hP h)
  · exact h

theorem startWalk_kept {slot n : Nat} {resume : Bool} {ord : List Nat} (h : P e) :
    P (startWalk slot n resume ord e) := by
  unfold startWalk
  refine hP.ite (walkApply_kept hP (winStart_kept hP h)) ?_
  extract_lets d e1 e2
  have h2 : P e2 := modWork_kept hP (readsForget_kept hP (winStart_kept hP h))
  split
  · exact hP.ite h2 (memRdIssue_kept hP.toKept h2)
  · exact h2

theorem dropLearned_kept {ms : List Nat} (h : P e) : P (dropLearned ms e) := dropSweep_kept hP (modKv_kept hP h)

theorem unparkTo_kept {slot : Nat} {p : Parked} {ord : List Nat} (h : P e) : P (unparkTo slot p ord e) :=
  startWalk_kept hP (placeReq_kept hP (unpark_kept hP h))

theorem turnRelease_kept {tc : Nat} {ord : List Nat} (h : P e) : P (turnRelease tc ord e) := by
  unfold turnRelease
  refine hP.foldl (fun e x h => ?_) h
  split
  · exact unparkTo_kept hP h
  · exact modParked_kept hP h

theorem theldClear_kept {tc : Nat} (h : P e) : P (theldClear tc e) := hP.foldl (fun _ _ h => modEng_kept hP h) h

theorem reclaimDrop_kept {lane : Nat} (h : P e) : P (reclaimDrop lane e) :=
  hP.foldl (fun _ _ h => opComplete_kept hP.toKept (hP.obj (openU32_kept hP.toKept h))) (hP.obj h)

theorem reclaimIssue_kept {r : Reclaim} (h : P e) : P (reclaimIssue e r) :=
  hP.foldl (fun _ _ h => laneOrderAt_kept hP h) h

theorem reclaimOrders_kept (h : P e) : P (reclaimOrders e) :=
  hP.foldl (fun _ _ h => reclaimIssue_kept hP h) (hP.obj h)

theorem reclaimSweep_kept (h : P e) : P (reclaimSweep e) := reclaimDrop_kept hP (reclaimOrders_kept hP h)
theorem modPwr_kept {f : PwrSt → PwrSt} (h : P e) : P (modPwr f e) := hP.obj h

theorem payOwed_kept {u : Nat} (h : P e) : P (payOwed u e) :=
  hP.foldl (fun _ _ h => opCompleteNoCtx_kept hP.toKept h) (modPwr_kept hP h)

theorem payNow_kept (h : P e) : P (payNow e) := payOwed_kept hP h

theorem capFreeze_kept (h : P e) : P (capFreeze e) := by
  unfold capFreeze
  split
  · exact h
  · exact hP.obj (reply_kept hP.toKept h)

theorem capNow_kept (h : P e) : P (capNow e) := hP.ite (capFreeze_kept hP h) h
theorem settled_kept (h : P e) : P (settled e) := capNow_kept hP (reclaimSweep_kept hP (payNow_kept hP h))

end

end Sys2Proof.Proofs

/-! # Tier-1 memory stays canonical (R319; log entry 1)

The canonical form is kept by a byte write and by dropping cells (Laws/Memory.lean), and nothing else changes memory.
So each operation keeps it because the operations it is made of do: one lemma per operation, in the order of the model's
files. -/

namespace Sys2Proof.Proofs

open Sys2Proof Sys2Proof.Machine Sys2Proof.Certs Sys2Proof.Laws

section MemWf

/-- Tier-1 memory is in its canonical form. -/
def MemWf (e : Engine) : Prop := memWf e.mem = true

theorem memKept : Kept MemWf := ⟨fun h => wr_wf _ _ _ h, fun h => h, fun h => h⟩
theorem memKeptKv : KeptKv MemWf := ⟨memKept, fun h => h⟩

variable {e : Engine}

/-! ## How an operation is put together -/

/-- An update of fields other than memory. -/
theorem MemWf.upd (h : MemWf e)
    {bad regs hiLatch wrLatch time sched lead pwr flt ten rq plans pol models images advice aslots xsets regions heat kv
      pver learn lanes port relay ket cnt trace hang cap latchNo free} :
    MemWf { e with
      bad, regs, hiLatch, wrLatch, time, sched, lead, pwr, flt, ten, rq, plans, pol, models, images, advice, aslots,
      xsets, regions, heat, kv, pver, learn, lanes, port, relay, ket, cnt, trace, hang, cap, latchNo, free } := h

section Choice

variable {c : Prop} [Decidable c]

theorem MemWf.ite {a b : Engine} (ha : MemWf a) (hb : MemWf b) : MemWf (if c then a else b) :=
  memKept.ite ha hb

/-- One more operation, or none. -/
theorem MemWf.when {a : Engine} (h : MemWf e) (ha : MemWf e → MemWf a) : MemWf (if c then a else e) := .ite (ha h) h

theorem MemWf.ite_fst {α : Type} {a b : Engine × α} (ha : MemWf a.1) (hb : MemWf b.1) :
    MemWf (if c then a else b).1 :=
  memKept.ite_fst ha hb

theorem MemWf.ite_snd {α : Type} {a b : α × Engine} (ha : MemWf a.2) (hb : MemWf b.2) :
    MemWf (if c then a else b).2 :=
  memKept.ite_snd ha hb

theorem MemWf.ite_eng {a b : Res} (ha : MemWf a.eng) (hb : MemWf b.eng) : MemWf (if c then a else b).eng := by
  split
  · exact ha
  · exact hb

end Choice

theorem MemWf.of_fst {α : Type} {p : Engine × α} {a : α} (heq : p = (e, a)) (h : MemWf p.1) : MemWf e :=
  memKept.of_fst heq h

theorem MemWf.foldl {α : Type} {f : Engine → α → Engine} (hf : ∀ e x, MemWf e → MemWf (f e x)) (h : MemWf e)
    {l : List α} : MemWf (l.foldl f e) :=
  memKept.foldl hf h

/-! ## The operations -/

/-! ### Tenants, memory ports and vectors -/

theorem whenUp_memWf {f : Engine → Engine} (hf : ∀ e, MemWf e → MemWf (f e)) (h : MemWf e) : MemWf (whenUp f e) :=
  .ite (hf _ h) h

theorem setTen_memWf {tc : Nat} {t : Tenant} (h : MemWf e) : MemWf (setTen tc t e) := h
theorem modTen_memWf {tc : Nat} {f : Tenant → Tenant} (h : MemWf e) : MemWf (modTen tc f e) := h
theorem modLearn_memWf {tc : Nat} {f : TLearn → TLearn} (h : MemWf e) : MemWf (modLearn tc f e) := h

theorem memPump_memWf (h : MemWf e) : MemWf (memPump e) := .foldl (fun _ _ h => memIssue_kept memKept h) (.upd h)

theorem releaseVec_memWf {v : VecId} (h : MemWf e) : MemWf (releaseVec v e) :=
  .ite (raiseVec_kept memKept (setReg_kept memKept h)) h

theorem lastRaise_memWf {v : VecId} (h : MemWf e) : MemWf (lastRaise v e) :=
  .ite h (.ite (msgQueue_kept memKept (setReg_kept memKept h)) (.upd (setReg_kept memKept h)))

theorem owedMsg_memWf (h : MemWf e) : MemWf (owedMsg e) := by
  unfold owedMsg
  split
  · exact h
  · exact .ite (setRegF_kept memKept (msgQueue_kept memKept (.upd h))) h

theorem replayRec_memWf {code sub tc : Nat} {obj : U64} (h : MemWf e) : MemWf (replayRec code sub tc obj e) := h

theorem replayWrite_memWf {x : Nat × Nat × Nat × U64} (h : MemWf e) : MemWf (replayWrite x e) :=
  tracePush_kept memKept (stPush_kept memKept (.upd h))

theorem markBreak_memWf {i : Nat} (h : MemWf e) : MemWf (markBreak i e) := h
theorem sayBreak_memWf (h : MemWf e) : MemWf (sayBreak e) := .upd (.foldl (fun _ _ h => replayWrite_memWf h) h)

theorem discRec_memWf {retlost lock stop : Bool} {oldEp newEp : U16} {lstr : Stride} {lstamp : Stamp} (h : MemWf e) :
    MemWf (discRec retlost lock stop oldEp newEp lstr lstamp e) :=
  tracePush_kept memKept (stPush_kept memKept h)

theorem strideWork_memWf {f : Engine → Engine} (hf : ∀ e, MemWf e → MemWf (f e)) (h : MemWf e) :
    MemWf (strideWork f e) :=
  .ite h (hf _ h)

theorem drainFault_memWf {q : Quad} {tag : U64} (h : MemWf e) : MemWf (drainFault q tag e) := fault_kept memKept h

theorem relaySend_memWf {kind : Nat} {dst : U32} {payload : List Byte} (h : MemWf e) :
    MemWf (relaySend kind dst payload e) :=
  .ite h (count_kept memKept (.upd h))

theorem laneOrder_memWf {l op tc : Nat} {region pred : U32} (h : MemWf e) :
    MemWf (laneOrder l op tc region pred e) :=
  laneOrderAt_kept memKeptKv h

theorem tick_memWf (h : MemWf e) : MemWf (tick e) := by
  unfold tick
  extract_lets _ e1 _
  split
  · exact .ite (.upd h) h
  · exact .foldl (fun _ _ h => releaseVec_memWf h) (owedMsg_memWf (.upd (.ite (.upd h) h)))

/-! ### Brew -/

theorem grantWrite_memWf {tc n : Nat} {s : Strm} (h : MemWf e) : MemWf (grantWrite tc n s e) := .ite (wr_kept memKept
    h) h

theorem grantTenant_memWf {tc : Nat} (h : MemWf e) : MemWf (grantTenant tc e) :=
  .foldl (fun _ _ h => grantWrite_memWf h) h

theorem closeStreams_memWf {tc : Nat} {p : Nat → Strm → Bool} (h : MemWf e) : MemWf (closeStreams tc p e) := h

theorem streamsFree_memWf {tc : Nat} (h : MemWf e) : MemWf (streamsFree tc e) :=
  .ite h (modTen_memWf (.ite (.foldl (fun _ _ h => wr_kept memKept h) h) h))

/-! ### Requests -/

theorem modReq_memWf {slot : Nat} {f : Req → Req} (h : MemWf e) : MemWf (modReq slot f e) := h
theorem takeUid_memWf (h : MemWf e) : MemWf (takeUid e).2 := h

theorem parkAt_memWf {entry cause : Nat} {r : Req} (h : MemWf e) : MemWf (parkAt entry cause r e) :=
  count_kept memKept (tcount_kept memKept (spillWrite_kept memKeptKv (.upd h)))

theorem modUid_memWf {uid : Nat} {f : Req → Req} (h : MemWf e) : MemWf (modUid uid f e) := by
  unfold modUid
  split
  · exact modReq_memWf h
  · split
    · exact modParked_kept memKeptKv h
    · exact h

theorem endSlot_memWf {slot : Nat} {st : RState} {reason seq : Nat} (h : MemWf e) :
    MemWf (endSlot slot st reason seq e) :=
  h

theorem endParked_memWf {entry : Nat} {st : RState} {reason : Nat} (h : MemWf e) :
    MemWf (endParked entry st reason e) :=
  modParked_kept memKeptKv h

theorem failSlot_memWf {slot : Nat} (h : MemWf e) : MemWf (failSlot slot e) := h

theorem setRollout_memWf {tc entry : Nat} {r : Rollout} (h : MemWf e) : MemWf (setRollout tc entry r e) :=
  wr_kept memKept (modLearn_memWf h)

theorem freeRollout_memWf {tc entry : Nat} (h : MemWf e) : MemWf (freeRollout tc entry e) := by
  unfold freeRollout
  split
  · exact h
  · exact wr_kept memKept (modLearn_memWf h)

theorem enterRollout_memWf {tc entry : Nat} {x : Rollout} (h : MemWf e) : MemWf (enterRollout tc entry x e) :=
  .foldl (fun _ _ h => setRollout_memWf h) (modLearn_memWf h)

theorem rolloutEnd_memWf {r : Req} {pverLast : U16} (h : MemWf e) : MemWf (rolloutEnd r pverLast e) := by
  unfold rolloutEnd
  refine .ite h ?_
  dsimp only
  split
  · exact h
  · exact enterRollout_memWf h

/-! ### KV blocks, tables, orders and the prefix index -/

theorem allocTier_memWf {tier : Nat} {x : Nat × Engine} (h : MemWf e) (heq : allocTier tier e = some x) :
    MemWf x.2 := by
  unfold allocTier at heq
  split at heq <;> cases heq
  exact modKv_kept memKeptKv h

theorem linkNode_memWf {n : Nat} {x : Node} (h : MemWf e) : MemWf (linkNode n x e) := by
  unfold linkNode
  split
  · exact setNode_kept memKeptKv h
  · exact modNode_kept memKeptKv (setNode_kept memKeptKv h)

theorem decRef_memWf {n : Nat} (h : MemWf e) : MemWf (decRef n e) := by
  unfold decRef
  split
  · exact h
  · exact .ite (removeTree_kept memKeptKv (setNode_kept memKeptKv h)) (setNode_kept memKeptKv h)

theorem appendBlk_memWf {slot : Nat} {e e' : Engine} (h : MemWf e) (heq : appendBlk slot e = some e') : MemWf e' := by
  unfold appendBlk at heq
  dsimp only at heq
  split at heq
  · cases heq
  · rename_i hpage
    split at heq
    · cases heq
    · rename_i hblk
      cases heq
      exact setEntry_kept memKeptKv (allocBlk_kept memKeptKv (ensurePage_kept memKeptKv h hpage) hblk)

theorem coverBlks_memWf {slot n : Nat} (h : MemWf e) : MemWf (coverBlks slot n e) := by
  induction n generalizing e with
  | zero => exact h
  | succ n ih =>
    unfold coverBlks
    split
    · rename_i heq
      exact ih (appendBlk_memWf h heq)
    · exact h

theorem privOrders_memWf {slot : Nat} (h : MemWf e) : MemWf (privOrders slot e) := h

theorem clearEntries_memWf {ps : List Nat} {n : Nat} (h : MemWf e) : MemWf (clearEntries ps n e) :=
  .foldl (fun _ _ h => wr_kept memKept h) h

theorem releaseKv_memWf {slot : Nat} (h : MemWf e) : MemWf (releaseKv slot e) := by
  unfold releaseKv
  split
  · exact h
  · refine privOrders_memWf (modWork_kept memKeptKv (modKv_kept memKeptKv (.ite (.foldl (fun e x h => ?_) (.ite
      (bumpGen_kept memKeptKv h) h))
      (dirClear_kept memKeptKv (clearEntries_memWf (.foldl (fun e x h => ?_) (.ite (bumpGen_kept memKeptKv h) h)))))))
    · split
      · exact decRef_memWf h
      · exact freePriv_kept memKeptKv h
    · split
      · exact decRef_memWf h
      · exact freePriv_kept memKeptKv h

theorem freePlace_memWf {w : U32} (h : MemWf e) : MemWf (freePlace w e) := .ite h (freeLoc_kept memKeptKv h)

theorem goneDone_memWf {src dst : Bool} {o : Order} (h : MemWf e) : MemWf (goneDone src dst o e) :=
  .ite (freePlace_memWf (.ite (freePlace_memWf h) h)) (.ite (freePlace_memWf h) h)

theorem moveNodeDone_memWf {n : Nat} {taken : Bool} {o : Order} {fail : Bool} (h : MemWf e) :
    MemWf (moveNodeDone n taken o fail e) := by
  unfold moveNodeDone
  split
  · exact freeTier_kept memKeptKv h
  · exact dropSweep_kept memKeptKv (.ite (setNode_kept memKeptKv (freeTier_kept memKeptKv h)) (setNode_kept memKeptKv
      (freeBlk_kept memKeptKv h)))

theorem movePrivDone_memWf {slot k : Nat} {o : Order} {fail : Bool} (h : MemWf e) :
    MemWf (movePrivDone slot k o fail e) :=
  .ite (.ite (setEntry_kept memKeptKv (freeTier_kept memKeptKv (freeBlk_kept memKeptKv h))) (freeBlk_kept memKeptKv
    h)) (freePlace_memWf
    (freeBlk_kept memKeptKv h))

theorem fetchNodeDone_memWf {n slot k : Nat} {o : Order} {fail : Bool} (h : MemWf e) :
    MemWf (fetchNodeDone n slot k o fail e) := by
  unfold fetchNodeDone
  split
  · exact kvReadyCheck_kept memKeptKv (freeBlk_kept memKeptKv (.ite h (freeTier_kept memKeptKv h)))
  · exact .ite (.ite (removeTree_kept memKeptKv (.foldl (fun _ _ h => failSlot_memWf h) (.ite (freeTier_kept memKeptKv
      ((freeBlk_kept memKeptKv)
      (setNode_kept memKeptKv h))) (freeBlk_kept memKeptKv (setNode_kept memKeptKv h))))) (.foldl (fun _ _ h =>
        failSlot_memWf h) (.ite
      (freeTier_kept memKeptKv (freeBlk_kept memKeptKv (setNode_kept memKeptKv h))) (freeBlk_kept memKeptKv
        (setNode_kept memKeptKv h))))) (.ite
      (kvReadyCheck_kept memKeptKv (freeBlk_kept memKeptKv (.ite (.ite (setEntry_kept memKeptKv h) h) (freeTier_kept
        memKeptKv (.ite
      (setEntry_kept memKeptKv h) h))))) (kvReadyCheck_kept memKeptKv (.ite (setNode_kept memKeptKv h) (freeTier_kept
        memKeptKv (setNode_kept memKeptKv h)))))

theorem fetchPrivDone_memWf {slot k : Nat} {o : Order} {fail : Bool} (h : MemWf e) :
    MemWf (fetchPrivDone slot k o fail e) :=
  .ite (.ite (failSlot_memWf (setEntry_kept memKeptKv (freeBlk_kept memKeptKv (freePlace_memWf h)))) ((freeBlk_kept
    memKeptKv)
    (freePlace_memWf h))) (.ite (kvReadyCheck_kept memKeptKv (freePlace_memWf h)) (freeBlk_kept memKeptKv
      (freePlace_memWf h)))

theorem winTok_memWf {a : Nat} (h : MemWf e) : MemWf (winTok a e).2 := .ite_snd (takeFree_kept memKept h) h

theorem rebuildWin_memWf {slot : Nat} (h : MemWf e) : MemWf (rebuildWin slot e) := by
  unfold rebuildWin
  split
  · exact .ite h ((modWork_kept memKeptKv)
      (List.foldlRecOn (motive := fun x : List U24 × Engine => MemWf x.2) _ _ h fun _ h _ _ => winTok_memWf h))
  · exact h

theorem setPrivate_memWf {slot : Nat} (h : MemWf e) : MemWf (setPrivate slot e) := h

theorem insertBlk_memWf {slot k : Nat} {hash : W4} {parent : Option Nat} {model : Nat} (h : MemWf e) :
    MemWf (insertBlk slot k hash parent model e) := by
  unfold insertBlk
  split
  · exact h
  · split
    · exact .ite (setEntry_kept memKeptKv (freeBlk_kept memKeptKv (takenMark_kept memKeptKv (incRef_kept memKeptKv
        h)))) (setPrivate_memWf h)
    · dsimp only
      split
      · exact setPrivate_memWf h
      · exact setEntry_kept memKeptKv (linkNode_memWf h)

theorem insertGo_memWf {slot n k : Nat} {r : Req} {hs : List W4} (h : MemWf e) :
    MemWf (insertGo slot r n k hs e) := by
  induction n generalizing k hs e with
  | zero => exact h
  | succ n ih =>
    unfold insertGo
    split
    · refine .ite h ?_
      split
      · exact h
      · exact .ite (ih h) (.ite (ih (insertBlk_memWf h)) (ih (insertBlk_memWf h)))
    · exact h

theorem insertReq_memWf {slot : Nat} (h : MemWf e) : MemWf (insertReq slot e) := by
  unfold insertReq
  split
  · exact h
  · exact .ite h (.ite h (.ite h (.ite (setPrivate_memWf (fault_kept memKept (insertGo_memWf h))) (insertGo_memWf h))))

theorem pauseEntry_memWf {slot k ttl tier : Nat} {r : Req} {x : BtEntry} (h : MemWf e) :
    MemWf (pauseEntry slot k ttl tier r x e) := by
  unfold pauseEntry
  dsimp only
  split
  · split
    · exact setEntry_kept memKeptKv h
    · refine .ite (setEntry_kept memKeptKv (decRef_memWf h)) ?_
      split
      · rename_i heq
        exact issueOrder_kept memKeptKv (setEntry_kept memKeptKv (modNode_kept memKeptKv (decRef_memWf
          (allocTier_memWf h heq))))
      · exact bumpOpen_kept memKept (setEntry_kept memKeptKv (decRef_memWf h))
  · refine .ite h ?_
    split
    · rename_i heq
      exact issueOrder_kept memKeptKv (setEntry_kept memKeptKv (allocTier_memWf h heq))
    · exact bumpOpen_kept memKept (setEntry_kept memKeptKv (freeBlk_kept memKeptKv h))

theorem pauseTreat_memWf {slot : Nat} (h : MemWf e) : MemWf (pauseTreat slot e) := by
  unfold pauseTreat
  split
  · split
    · exact modWork_kept memKeptKv (.foldl (fun _ _ h => pauseEntry_memWf h) h)
    · exact h
  · exact h

theorem ttlPriv_memWf {at_ : Stride} {slot : Nat} {r : Req} (h : MemWf e) : MemWf (ttlPriv at_ slot r e) := by
  unfold ttlPriv
  refine .foldl (fun e x h => ?_) h
  split
  · exact .ite (setEntry_kept memKeptKv (freePriv_kept memKeptKv h)) h
  · exact h

theorem ttlScan_memWf {at_ : Stride} (h : MemWf e) : MemWf (ttlScan at_ e) := by
  unfold ttlScan
  refine .foldl (fun _ _ h => ttlPriv_memWf h) (.foldl (fun e x h => ?_) h)
  split
  · exact bumpOpen_kept memKept (removeTree_kept memKeptKv h)
  · exact h

theorem idxClear_memWf (h : MemWf e) : MemWf (idxClear e) :=
  memFilter_wf _ _ (MemWf.foldl (fun _ _ h => freeLoc_kept memKeptKv h) h)

/-! ### Rows: records, tokens, verification and draft rounds -/

theorem modHeat_memWf {f : Heat → Heat} (h : MemWf e) : MemWf (modHeat f e) := h
theorem setIssued_memWf {row : Nat} (h : MemWf e) : MemWf (setIssued row e) := h
theorem setStream_memWf {s : Machine.Stream} (h : MemWf e) : MemWf (setStream s e) := h
theorem dropStream_memWf {row pair : Nat} (h : MemWf e) : MemWf (dropStream row pair e) := h
theorem rowFault_memWf {row : Nat} (h : MemWf e) : MemWf (rowFault row e) := fault_kept memKept h

theorem mergeIn_memWf {f : Flight} (h : MemWf e) : MemWf (mergeIn f e) := by
  unfold mergeIn
  split
  · exact h
  · split
    · exact h
    · exact .ite (rowFault_memWf (bumpSat_kept memKept h)) (setStream_memWf h)

theorem launch_memWf {f : Flight} (h : MemWf e) : MemWf (launch f e) := h

theorem deliverFrom_memWf {src dst : Nat} (h : MemWf e) : MemWf (deliverFrom src dst e) :=
  .ite h (.foldl (fun _ _ h => mergeIn_memWf h) (.upd h))

theorem rowRecords_memWf {r : HRow} {recs : List (List Byte)} (h : MemWf e) : MemWf (rowRecords r recs e) :=
  mpRecords_kept memKept h

theorem applyToken_memWf {hp : Heat} {r : HRow} {gen t : Nat} (h : MemWf e) :
    MemWf (applyToken hp r gen t e).eng := by
  unfold applyToken
  extract_lets late e1 e2
  have h2 : MemWf e2 := .ite (count_kept memKept (tcount_kept memKept (bumpOpen_kept memKept (bumpOpen_kept memKept
    (modTen_memWf ((count_kept memKept)
    (tcount_kept memKept h))))))) (count_kept memKept (tcount_kept memKept h))
  split
  · exact h2
  · refine .ite ?_ (.ite (wrN_kept memKept (modUid_memWf h2)) (modUid_memWf h2))
    split
    · exact modKv_kept memKeptKv (rolloutEnd_memWf (.ite (wrN_kept memKept (modUid_memWf h2)) (modUid_memWf h2)))
    · exact rolloutEnd_memWf (.ite (wrN_kept memKept (modUid_memWf h2)) (modUid_memWf h2))

theorem countFlags_memWf {p : Machine.Part} {trunc : Bool} (h : MemWf e) : MemWf (countFlags p trunc e) :=
  .ite (bumpOpen_kept memKept (.ite (count_kept memKept (bumpOpen_kept memKept h)) h)) (.ite (count_kept memKept
    (bumpOpen_kept memKept h)) h)

theorem errorRecord_memWf {hp : Heat} {r : HRow} {code : Nat} (h : MemWf e) : MemWf (errorRecord hp r code e) := by
  unfold errorRecord
  extract_lets gen rec_ e1 e2 e3 e4 e5
  have h3 : MemWf e3 := .ite (bumpOpen_kept memKept (count_kept memKept (tcount_kept memKept (modUid_memWf h))))
    ((bumpOpen_kept memKept)
    (count_kept memKept (tcount_kept memKept (modUid_memWf h))))
  exact .ite (rowFault_memWf (setIssued_memWf (rowRecords_memWf h3))) (setIssued_memWf (rowRecords_memWf h3))

theorem issueWatch_memWf {r : HRow} {p : Machine.Part} (h : MemWf e) : MemWf (issueWatch r p e) :=
  .ite h (mpRecords_kept memKept h)

theorem draftKeep_memWf {uid : Nat} (h : MemWf e) : MemWf (draftKeep uid e) := by
  unfold draftKeep
  split
  · exact wr_kept memKept (.upd h)
  · exact h

theorem orderRound_memWf {uid lead : Nat} (h : MemWf e) : MemWf (orderRound uid lead e) := by
  unfold orderRound
  split
  · exact h
  · split
    · exact h
    · exact mpRecords_kept memKept (draftKeep_memWf (modUid_memWf h))

theorem startDraft_memWf {hp : Heat} {r : HRow} (h : MemWf e) : MemWf (startDraft hp r e) := by
  unfold startDraft
  split
  · exact .ite (orderRound_memWf h) h
  · exact h

theorem finishRound_memWf {r : HRow} (h : MemWf e) : MemWf (finishRound r e) := by
  unfold finishRound
  split
  · exact .ite h (.ite (orderRound_memWf (count_kept memKept (mpRecords_kept memKept (draftKeep_memWf (dropStream_memWf
      (modUid_memWf h)))))) (count_kept memKept (mpRecords_kept memKept (draftKeep_memWf (dropStream_memWf
        (modUid_memWf h))))))
  · exact h

theorem cutRound_memWf {r : HRow} (h : MemWf e) : MemWf (cutRound r e) :=
  dropStream_memWf (bumpSat_kept memKept (draftKeep_memWf (modUid_memWf h)))

theorem issueRow_memWf {r : HRow} (h : MemWf e) : MemWf (issueRow r e) := by
  unfold issueRow
  split
  · exact h
  · dsimp only
    split
    · exact issueWatch_memWf (errorRecord_memWf h)
    · exact .ite (issueWatch_memWf (errorRecord_memWf h)) (startDraft_memWf (issueWatch_memWf (setIssued_memWf
        (rowRecords_memWf (countFlags_memWf (applyToken_memWf h))))))

theorem itemToken_memWf {hp : Heat} {r row : HRow} {t : Nat} {kept : List Cand} {trunc : Bool} {s : WalkSt}
    (h : MemWf s.eng) : MemWf (itemToken hp r row t kept trunc s).1.eng := by
  unfold itemToken
  dsimp only
  exact countFlags_memWf (applyToken_memWf h)

theorem noteLq_memWf {p1 : Machine.Part} {c : HRow} {s : WalkSt} (h : MemWf s.eng) : MemWf (noteLq p1 c s).eng := by
  unfold noteLq
  split
  · exact bumpSat_kept memKept h
  · exact h

theorem tryKids_memWf {d : Desc} {key : U128} {step : U32} {pos j sq : Nat} {p1 : Machine.Part} {sel : Option Nat}
    {cs : List HRow} {w : List (Nat × Nat)} {s : WalkSt} (h : MemWf s.eng) :
    MemWf (tryKids d key step pos p1 sel sq cs w j s).2.2.2.eng := by
  induction cs generalizing w j s with
  | nil => exact h
  | cons c cs ih =>
    unfold tryKids
    extract_lets s1 x ok s2
    have h1 : MemWf s1.eng := noteLq_memWf h
    split
    · exact h1
    · split
      · exact ih h1
      · split
        · exact ih h1
        · exact ih (bumpSat_kept memKept h1)

theorem itemWalk_memWf {hp : Heat} {r row : HRow} {n : Nat} {s : WalkSt} (h : MemWf s.eng) :
    MemWf (itemWalk hp r n row s).eng := by
  induction n generalizing row s with
  | zero => exact h
  | succ n ih =>
    unfold itemWalk
    extract_lets p k p1 step sel kids sq noSq s1
    split
    · split <;> exact h
    · have h1 : MemWf s1.eng := by
        unfold s1
        split <;> exact h
      split
      rename_i took w j s2 heq
      have h2 : MemWf s2.eng := by
        split at heq
        · cases heq
          exact h1
        · have ht := tryKids_memWf (d := r.d) (key := r.key) (step := step) (pos := row.pos) (j := 0) (sq := sq)
            (p1 := p1) (sel := sel) (cs := kids) (w := rowWeights p k.set) h1
          rw [heq] at ht
          exact ht
      split
      · rename_i c
        dsimp only
        split
        · exact itemToken_memWf h2
        · exact ih (itemToken_memWf h2)
      · dsimp only
        split
        · exact h2
        · exact itemToken_memWf h2

theorem issueItem_memWf {r : HRow} (h : MemWf e) : MemWf (issueItem r e) := by
  unfold issueItem
  split
  · exact h
  · exact .ite (issueWatch_memWf (errorRecord_memWf (itemWalk_memWf h))) (startDraft_memWf (issueWatch_memWf
      (setIssued_memWf (rowRecords_memWf (draftKeep_memWf (modUid_memWf (count_kept memKept (count_kept memKept
        ((bumpOpen_kept memKept)
      (bumpOpen_kept memKept (itemWalk_memWf h)))))))))))

theorem judgeRow_memWf {r : HRow} (h : MemWf e) : MemWf (judgeRow r e) := by
  unfold judgeRow
  split
  · exact h
  · refine .ite h (.ite h ?_)
    extract_lets e1 e2
    have h2 : MemWf e2 := .ite h (.ite (modUid_memWf (errorRecord_memWf h)) (errorRecord_memWf h))
    split
    · exact .ite h2 (cutRound_memWf h2)
    · exact h2

theorem judge_memWf (h : MemWf e) : MemWf (judge e) := by
  unfold judge
  split
  · exact h
  · exact .foldl (fun _ _ h => judgeRow_memWf h) h

theorem setBuf_memWf {q : Nat} {b : List (U64 × List Byte)} (h : MemWf e) : MemWf (setBuf q b e) := h

theorem logitsAccept_memWf {port : Quad} {tag : U64} {pl : List Byte} (h : MemWf e) :
    MemWf (logitsAccept port tag pl e) := by
  unfold logitsAccept
  split
  · exact h
  · extract_lets row pair s q last
    split
    · exact h
    · extract_lets p nan e1 e2 e3 f
      have h2 : MemWf e2 := .ite (setStream_memWf h) (count_kept memKept (bumpOpen_kept memKept (setStream_memWf h)))
      exact .ite (tcount_kept memKept h2) (.ite (mergeIn_memWf (tcount_kept memKept h2)) (launch_memWf (tcount_kept
        memKept h2)))

theorem passOne_memWf {q : Nat} (h : MemWf e) : MemWf (passOne q e) := by
  unfold passOne
  dsimp only
  split
  · exact h
  · exact logitsAccept_memWf (setBuf_memWf (.upd h))

theorem passGo_memWf {go : Engine → Bool} {q n : Nat} (h : MemWf e) : MemWf (passGo go q n e) := by
  induction n generalizing e with
  | zero => exact h
  | succ n ih =>
    unfold passGo
    exact .ite h (ih (.ite (passOne_memWf h) (modHeat_memWf (passOne_memWf h))))

theorem passAll_memWf {q : Nat} (h : MemWf e) : MemWf (passAll q e) := passGo_memWf h

theorem drainPass_memWf {q : Nat} (h : MemWf e) : MemWf (drainPass q e) :=
  .ite h (.upd (.ite (judge_memWf (passGo_memWf h)) (passGo_memWf h)))

theorem issueIfReady_memWf {r : HRow} (h : MemWf e) : MemWf (issueIfReady r e) := by
  unfold issueIfReady
  split
  · exact h
  · split
    · exact h
    · exact .ite h (.ite (.ite (issueItem_memWf h) h) (.ite (issueRow_memWf h) h))

theorem stepKv_memWf (h : MemWf e) : MemWf (stepKv e) := by
  unfold stepKv
  split
  · exact h
  · exact .foldl (fun _ _ h => setIssued_memWf (modUid_memWf h)) h

theorem finishRounds_memWf {n : Nat} (h : MemWf e) : MemWf (finishRounds n e) := by
  induction n generalizing e with
  | zero => exact h
  | succ n ih =>
    unfold finishRounds
    split
    · exact h
    · rename_i hp _
      have hr : MemWf (hp.rows.foldl (fun e r => finishRound r e) e) := .foldl (fun _ _ h => finishRound_memWf h) h
      dsimp only
      split
      · exact .ite hr (ih hr)
      · exact hr

theorem heatFinish_memWf (h : MemWf e) : MemWf (heatFinish e) := by
  unfold heatFinish
  split
  · exact h
  · exact .ite h (judge_memWf (finishRounds_memWf (.foldl (fun _ _ h => issueIfReady_memWf h) (modHeat_memWf (.foldl
      (fun _ _ h => .foldl (fun _ _ h => deliverFrom_memWf h) h) (.foldl (fun _ _ h => passAll_memWf h) h))))))

theorem capGate_memWf {i : Instr} {f : Engine → Engine} (hf : ∀ e, MemWf e → MemWf (f e)) (h : MemWf e) :
    MemWf (capGate i f e) :=
  .ite (.upd h) (hf _ h)

theorem discard_memWf {kind : Nat} {port : Quad} {tag : U64} (h : MemWf e) :
    MemWf (Machine.discard kind port tag e) := by
  refine drainFault_memWf (count_kept memKept ?_)
  split <;> exact bumpSat_kept memKept h

theorem logitsIn_memWf {port : Quad} {tag : U64} {pl : List Byte} {prev : Option (Nat × Nat × Nat)} (h : MemWf e) :
    MemWf (logitsIn port tag pl prev e) := by
  unfold logitsIn
  split
  · exact setBuf_memWf h
  · refine .ite ?_ (discard_memWf h)
    split
    · exact setStream_memWf (discard_memWf h)
    · exact discard_memWf h

theorem stepDoneIn_memWf {port : Quad} {tag : U64} (h : MemWf e) : MemWf (stepDoneIn port tag e) := by
  unfold stepDoneIn
  refine .ite (discard_memWf h) ?_
  split
  · exact discard_memWf h
  · exact .ite (discard_memWf h) (judge_memWf (.ite (stepKv_memWf (modHeat_memWf h)) (modHeat_memWf h)))

theorem addWord_memWf {port : Quad} {w : Word} (h : MemWf e) : MemWf (addWord port w e) := h

theorem stashIn_memWf {port : Quad} {tag : U64} {pl : List Byte} (h : MemWf e) : MemWf (stashIn port tag pl e) :=
  .ite (discard_memWf h) (addWord_memWf h)

theorem laneIn_memWf {port : Quad} {tag : U64} {pl : List Byte} (h : MemWf e) : MemWf (laneIn port tag pl e) := by
  unfold laneIn
  refine .ite (discard_memWf h) (.ite (discard_memWf h) (.ite (discard_memWf h) ?_))
  split
  · exact addWord_memWf h
  · split
    · exact .ite h (addWord_memWf (modHeat_memWf h))
    · exact h
  · exact addExt_kept memKept h

theorem tableWordIn_memWf {digest : Bool} {port : Quad} {tag : U64} {pl : List Byte} (h : MemWf e) :
    MemWf (tableWordIn digest port tag pl e) := by
  unfold tableWordIn
  refine .ite (discard_memWf h) ?_
  split
  · exact discard_memWf h
  · exact .ite (discard_memWf h) (.foldl (fun _ _ h => .ite h (.ite (addWord_memWf h) (addWord_memWf h))) h)

theorem drainIn_memWf {port : Quad} {tag : U64} {pl : List Byte} (h : MemWf e) : MemWf (drainIn port tag pl e) := by
  unfold drainIn
  refine .ite (drainFault_memWf (bumpSat_kept memKept h)) (drainPass_memWf (.upd ?_))
  split
  · exact logitsIn_memWf (modHeat_memWf h)
  · exact stepDoneIn_memWf (modHeat_memWf h)
  · exact stashIn_memWf (modHeat_memWf h)
  · exact laneIn_memWf (modHeat_memWf h)
  · exact tableWordIn_memWf (modHeat_memWf h)
  · exact tableWordIn_memWf (modHeat_memWf h)
  · exact discard_memWf (modHeat_memWf h)

theorem opPartialArrival_memWf {src : Quad} {row : RowNo} {pair : BitVec 2} (h : MemWf e) :
    MemWf (opPartialArrival src row pair e) := by
  unfold opPartialArrival
  refine .ite h ?_
  split
  · exact h
  · exact .ite h (mergeIn_memWf (.foldl (fun _ _ h => mergeIn_memWf h) (.upd h)))

theorem opDoneMarker_memWf {src dst : Quad} (h : MemWf e) : MemWf (opDoneMarker src dst e) := by
  unfold opDoneMarker
  split
  · exact h
  · exact .ite h (judge_memWf (modHeat_memWf (deliverFrom_memWf h)))

theorem opIssueRow_memWf {row : Nat} (h : MemWf e) : MemWf (opIssueRow row e) := by
  unfold opIssueRow
  split
  · exact h
  · split
    · exact h
    · exact .ite h (judge_memWf (issueIfReady_memWf h))

theorem opVerifyItem_memWf {row : Nat} (h : MemWf e) : MemWf (opVerifyItem row e) := by
  unfold opVerifyItem
  split
  · exact h
  · split
    · exact h
    · exact .ite (judge_memWf (issueIfReady_memWf h)) h

theorem opDraftRound_memWf {slot : Nat} (h : MemWf e) : MemWf (opDraftRound slot e) := by
  unfold opDraftRound
  split
  · split
    · exact judge_memWf (finishRound_memWf h)
    · exact h
  · exact h

/-! ### Plans and policies -/

theorem opPolicyLoad_memWf {addr bytes : Nat} {err : Bool} (h : MemWf e) :
    MemWf (opPolicyLoad addr bytes err e).eng :=
  .ite_eng h (.ite_eng h (.upd h))

theorem planReserve_memWf {ridx : U32} {count : Nat} (h : MemWf e) : MemWf (planReserve ridx count e) := h
theorem planRelease_memWf {ridx : U32} (h : MemWf e) : MemWf (planRelease ridx e) := h

theorem planLoad_memWf {addr model cnt : Nat} {resv : List Nat} {err : Bool} (h : MemWf e) :
    MemWf (planLoad addr model cnt resv err e).eng := by
  unfold planLoad
  refine .ite_eng h (.ite_eng h ?_)
  split
  · exact h
  · exact .ite_eng h (.upd h)

theorem opPlanLoad_memWf {ridx : U32} {addr model cnt : Nat} {err : Bool} (h : MemWf e) :
    MemWf (opPlanLoad ridx addr model cnt err e).eng :=
  planLoad_memWf (planRelease_memWf h)

/-! ### Heats -/

theorem modDl_memWf {tc : Nat} {f : TDl → TDl} (h : MemWf e) : MemWf (modDl tc f e) := h

theorem fallBack_memWf {slot tc : Nat} (h : MemWf e) : MemWf (fallBack slot tc e) :=
  count_kept memKept (tcount_kept memKept (modDl_memWf (bumpOpen_kept memKept (bumpOpen_kept memKept (modReq_memWf
    h)))))

theorem lateRule_memWf {slot : Nat} (h : MemWf e) : MemWf (lateRule slot e) := by
  unfold lateRule
  split
  · exact h
  · refine .ite h (.ite (modWork_kept memKeptKv h) ?_)
    split
    · exact .ite (modWork_kept memKeptKv h) (.ite (fallBack_memWf (modWork_kept memKeptKv h)) (bumpOpen_kept memKept
        (modWork_kept memKeptKv h)))
    · exact bumpOpen_kept memKept (endSlot_memWf (modWork_kept memKeptKv h))
    · exact modWork_kept memKeptKv h

theorem lateRules_memWf (h : MemWf e) : MemWf (lateRules e) := .upd (.foldl (fun _ _ h => lateRule_memWf h) h)
theorem project_memWf {skip : Nat → Bool} (h : MemWf e) : MemWf (project skip e).1 := bumpOpen_kept memKept h

theorem fallbacks_memWf {ok : Nat → Bool} {rs : List Risk} (h : MemWf e) : MemWf (fallbacks ok rs e) := by
  unfold fallbacks
  refine .foldl (fun e x h => ?_) h
  split
  · exact h
  · exact .ite h (.ite (fallBack_memWf h) (bumpOpen_kept memKept (modDl_memWf h)))

theorem dlIrq_memWf {tc : Nat} (h : MemWf e) : MemWf (dlIrq tc e) :=
  .ite h (.ite (raiseVec_kept memKept (modDl_memWf h)) (modDl_memWf h))

theorem dlIrqs_memWf (h : MemWf e) : MemWf (dlIrqs e) := .foldl (fun _ _ h => dlIrq_memWf h) h
theorem countStale_memWf (h : MemWf e) : MemWf (countStale e) := .foldl (fun _ _ h => .ite (bumpOpen_kept memKept h)
    h) h

theorem choosePlan_memWf {cands : List Cnd} (h : MemWf e) : MemWf (choosePlan cands e).1 := by
  unfold choosePlan
  refine .ite_fst h ?_
  split
  · exact h
  · refine .ite_fst (bumpOpen_kept memKept h) (.ite_fst (bumpOpen_kept memKept h) ?_)
    split
    · exact h
    · exact bumpOpen_kept memKept (bumpOpen_kept memKept h)

theorem countHeat_memWf {hp : Heat} (h : MemWf e) : MemWf (countHeat hp e) :=
  .upd (.foldl (fun _ _ h => tcount_kept memKept (tcount_kept memKept (tcount_kept memKept h))) (.ite (count_kept
    memKept (.ite ((count_kept memKept)
    (count_kept memKept (count_kept memKept (count_kept memKept h)))) (count_kept memKept (count_kept memKept
      (count_kept memKept h))))) (.ite ((count_kept memKept)
    (count_kept memKept (count_kept memKept (count_kept memKept h)))) (count_kept memKept (count_kept memKept
      (count_kept memKept h))))))

theorem emitHeat_memWf {hp : Heat} (h : MemWf e) : MemWf (emitHeat hp e) :=
  countHeat_memWf (.ite (tracePush_kept memKept (.foldl (fun _ _ h => mpPush_kept memKept h) (.upd h))) (.foldl
    (fun _ _ h => mpPush_kept memKept h) (.upd h)))

theorem allocItems_memWf {f : Fill} (h : MemWf e) : MemWf (allocItems f e) :=
  .foldl (fun _ _ h => coverBlks_memWf h) h

theorem emitGen_memWf {c : Option (Nat × Choice)} (h : MemWf e) : MemWf (emitGen c e) := by
  unfold emitGen
  split
  · exact emitHeat_memWf h
  · exact emitHeat_memWf (allocItems_memWf h)

theorem advanceVt_memWf {f : Fill} (h : MemWf e) : MemWf (advanceVt f e) :=
  .foldl (fun _ _ h => .ite h (modTen_memWf h)) h

theorem updateWaits_memWf {granted : List Nat} (h : MemWf e) : MemWf (updateWaits granted e) :=
  .foldl (fun _ _ h => modEng_kept memKeptKv h) h

theorem markHeld_memWf {held : List Nat} (h : MemWf e) : MemWf (markHeld held e) := by
  unfold markHeld
  refine .upd (.foldl (fun e x h => ?_) h)
  split
  · exact bumpOpen_kept memKept h
  · exact h

theorem genHeat_memWf {rs : List Risk} (h : MemWf e) : MemWf (genHeat rs e) :=
  markHeld_memWf (updateWaits_memWf (advanceVt_memWf (dlIrqs_memWf (emitGen_memWf (choosePlan_memWf
    (fallbacks_memWf h))))))

/-! ### The relay and Batons -/

theorem modRelay_memWf {f : RelaySt → RelaySt} (h : MemWf e) : MemWf (modRelay f e) := h

theorem batonSend_memWf {kind code tc : Nat} {num peer : U32} (h : MemWf e) :
    MemWf (batonSend kind code tc num peer e) :=
  relaySend_memWf h

theorem modBaton_memWf {sender : Bool} {num peer : U32} {f : Baton → Baton} (h : MemWf e) :
    MemWf (modBaton sender num peer f e) :=
  h

theorem dropBaton_memWf {sender : Bool} {num peer : U32} (h : MemWf e) : MemWf (dropBaton sender num peer e) := h

theorem offerSend_memWf {b : Baton} (h : MemWf e) : MemWf (offerSend b e) := by
  unfold offerSend
  split
  · exact h
  · exact modBaton_memWf (relaySend_memWf h)

theorem offersDue_memWf (h : MemWf e) : MemWf (offersDue e) := by
  unfold offersDue
  refine .foldl (fun e x h => ?_) h
  split
  · exact .ite h (offerSend_memWf h)
  · exact h

theorem batonFail_memWf {b : Baton} (h : MemWf e) : MemWf (batonFail b e) := by
  unfold batonFail
  extract_lets e1
  split
  · exact bumpSat_kept memKept (dropBaton_memWf h)
  · exact .ite (.ite (modReq_memWf (bumpSat_kept memKept (dropBaton_memWf h))) (bumpSat_kept memKept (dropBaton_memWf
      h))) (.ite
      (modWork_kept memKeptKv (releaseKv_memWf (bumpSat_kept memKept (dropBaton_memWf h)))) (bumpSat_kept memKept
        (dropBaton_memWf h)))

theorem batonAbort_memWf {b : Baton} (h : MemWf e) : MemWf (batonAbort b e) := batonFail_memWf (batonSend_memWf h)

theorem batonsLost_memWf {peer : U32} (h : MemWf e) : MemWf (batonsLost peer e) :=
  .foldl (fun _ _ h => batonFail_memWf h) h

theorem batonTimeouts_memWf (h : MemWf e) : MemWf (batonTimeouts e) := .foldl (fun _ _ h => batonAbort_memWf h) h

theorem tenantAborts_memWf {tc : Nat} (h : MemWf e) : MemWf (tenantAborts tc e) := by
  unfold tenantAborts
  refine .foldl (fun e x h => ?_) h
  split
  · exact dropBaton_memWf (batonSend_memWf h)
  · exact h

theorem recvComplete_memWf {b : Baton} (h : MemWf e) : MemWf (recvComplete b e) := by
  unfold recvComplete
  dsimp only
  split
  · exact .ite (bumpSat_kept memKept (batonSend_memWf (modWork_kept memKeptKv (dropBaton_memWf h))))
      (dropBaton_memWf h)
  · exact dropBaton_memWf h

theorem offerIn_memWf {src : U32} {m : List Byte} (h : MemWf e) : MemWf (offerIn src m e) := by
  unfold offerIn
  refine .ite (batonSend_memWf h) (.ite (batonSend_memWf h) (.ite (batonSend_memWf h) ?_))
  split
  · exact batonSend_memWf h
  · exact .ite (batonSend_memWf h) (.ite (recvComplete_memWf (batonSend_memWf (.foldl
      (fun _ _ h => issueOrder_kept memKeptKv h) (modKv_kept memKeptKv (.ite (coverBlks_memWf (placeReq_kept memKeptKv
        ((takeFree_kept memKept)
      (takeUid_memWf h)))) (bumpOpen_kept memKept (coverBlks_memWf (placeReq_kept memKeptKv (takeFree_kept memKept
        (takeUid_memWf h))))))))))
      (batonSend_memWf (.foldl (fun _ _ h => issueOrder_kept memKeptKv h) (modKv_kept memKeptKv (.ite (coverBlks_memWf
        ((placeReq_kept memKeptKv)
      (takeFree_kept memKept (takeUid_memWf h)))) (bumpOpen_kept memKept (coverBlks_memWf (placeReq_kept memKeptKv
        ((takeFree_kept memKept)
      (takeUid_memWf h))))))))))

theorem acceptIn_memWf {src num : U32} (h : MemWf e) : MemWf (acceptIn src num e) := by
  unfold acceptIn
  split
  · exact h
  · split
    · exact h
    · exact .ite h (.foldl (fun _ _ h => issueOrder_kept memKeptKv h) (modBaton_memWf h))

theorem completeIn_memWf {src num : U32} (h : MemWf e) : MemWf (completeIn src num e) := by
  unfold completeIn
  split
  · exact bumpSat_kept memKept h
  · dsimp only
    split
    · exact .ite (endSlot_memWf (bumpSat_kept memKept (dropBaton_memWf h))) (bumpSat_kept memKept (dropBaton_memWf h))
    · exact bumpSat_kept memKept (dropBaton_memWf h)

theorem batonIn_memWf {src : U32} {m : List Byte} (h : MemWf e) : MemWf (batonIn src m e) := by
  unfold batonIn
  split
  · exact offerIn_memWf h
  · exact acceptIn_memWf h
  · dsimp only
    split
    · exact batonFail_memWf h
    · exact h
  · exact completeIn_memWf h
  · exact .foldl (fun _ _ h => batonFail_memWf h) h
  · exact h

theorem batonOrderDone_memWf {sender : Bool} {o : Order} {fail : Bool} (h : MemWf e) :
    MemWf (batonOrderDone sender o fail e) := by
  unfold batonOrderDone
  split
  · exact h
  · exact .ite (batonAbort_memWf h) (.ite (recvComplete_memWf (modBaton_memWf h)) (modBaton_memWf h))

theorem countMove_memWf {o : Order} (h : MemWf e) : MemWf (countMove o e) := by
  unfold countMove
  split <;> exact count_kept memKept h

theorem orderDone_memWf {num : Nat} {fail : Bool} (h : MemWf e) : MemWf (orderDone num fail e) := by
  unfold orderDone
  split
  · exact h
  · extract_lets e1 e2
    have h2 : MemWf e2 := .ite (modKv_kept memKeptKv h) (countMove_memWf (modKv_kept memKeptKv h))
    split
    · exact moveNodeDone_memWf h2
    · exact movePrivDone_memWf h2
    · exact fetchNodeDone_memWf h2
    · exact fetchPrivDone_memWf h2
    · exact goneDone_memWf h2
    · exact batonOrderDone_memWf h2
    · exact batonOrderDone_memWf h2

theorem orderReportIn_memWf {num : U32} {fail : Bool} (h : MemWf e) : MemWf (orderReportIn num fail e) :=
  .ite (addExt_kept memKept h) (bumpSat_kept memKept h)

theorem peerGone_memWf {id : U32} (h : MemWf e) : MemWf (peerGone id e) := by
  unfold peerGone
  split
  · exact h
  · exact batonsLost_memWf (bumpSat_kept memKept (modRelay_memWf h))

theorem peerArrive_memWf {x : Peer} (h : MemWf e) : MemWf (peerArrive x e) := by
  unfold peerArrive
  split
  · exact bumpSat_kept memKept (modRelay_memWf h)
  · exact h

theorem trayGone_memWf {ids : List U32} (h : MemWf e) : MemWf (trayGone ids e) :=
  .foldl (fun _ _ h => peerGone_memWf h) h

theorem relayDiscard_memWf (h : MemWf e) : MemWf (relayDiscard e) := h

theorem probeRound_memWf {peer : U32} (h : MemWf e) : MemWf (probeRound peer e) :=
  .ite h (.foldl (fun _ _ h => relaySend_memWf h) (modRelay_memWf h))

theorem peerEpoch_memWf {src : U32} {ep : U16} (h : MemWf e) : MemWf (peerEpoch src ep e) := by
  unfold peerEpoch
  split
  · exact h
  · exact .ite h (probeRound_memWf (modRelay_memWf h))

theorem beaconIn_memWf {src : U32} {ep : U16} {pl : List Byte} (h : MemWf e) : MemWf (beaconIn src ep pl e) := by
  unfold beaconIn
  split
  · exact .ite (modRelay_memWf h) (addExt_kept memKept (addExt_kept memKept (modRelay_memWf h)))
  · exact .ite (.upd h) (.ite (bumpSat_kept memKept h) (addExt_kept memKept h))

theorem probeIn_memWf {src : U32} {pl : List Byte} (h : MemWf e) : MemWf (probeIn src pl e) := relaySend_memWf h

theorem probeReplyIn_memWf {src : U32} {m pl : List Byte} (h : MemWf e) : MemWf (probeReplyIn src m pl e) := by
  unfold probeReplyIn
  split
  · exact h
  · split
    · exact h
    · refine .ite h (.ite (modRelay_memWf h) ?_)
      split
      · exact probeRound_memWf (modRelay_memWf h)
      · exact modRelay_memWf (modRelay_memWf h)

theorem relayIn_memWf {m : List Byte} (h : MemWf e) : MemWf (relayIn m e) := by
  unfold relayIn
  refine .ite (bumpSat_kept memKept (relayDiscard_memWf (count_kept memKept h))) (.ite (relayDiscard_memWf (count_kept
    memKept h)) ?_)
  split
  · exact peerEpoch_memWf (beaconIn_memWf (count_kept memKept h))
  · exact probeIn_memWf (peerEpoch_memWf (count_kept memKept h))
  · exact peerEpoch_memWf (probeReplyIn_memWf (count_kept memKept h))
  · exact addExt_kept memKept (peerEpoch_memWf (count_kept memKept h))
  · exact addExt_kept memKept (count_kept memKept h)

theorem relayTake_memWf {m : List Byte} (h : MemWf e) : MemWf (relayTake m e) :=
  .ite (relayDiscard_memWf h) (modRelay_memWf (relayIn_memWf (modRelay_memWf h)))

theorem departAll_memWf (h : MemWf e) : MemWf (departAll e) := .foldl (fun _ _ h => relaySend_memWf h) h

theorem departureTimer_memWf {peer : U32} (h : MemWf e) : MemWf (departureTimer peer e) := by
  unfold departureTimer
  split
  · exact h
  · exact .ite h (.ite (addExt_kept memKept h) (addExt_kept memKept h))

theorem opProbeRound_memWf {peer : U32} (h : MemWf e) : MemWf (opProbeRound peer e) := .ite (probeRound_memWf h) h

theorem opDiscarded_memWf {msg : List Byte} {credit : Bool} (h : MemWf e) : MemWf (opDiscarded msg credit e) :=
  .ite (relayTake_memWf h) (relayDiscard_memWf h)

theorem opBatonTimeout_memWf {num : U32} (h : MemWf e) : MemWf (opBatonTimeout num e) :=
  .foldl (fun _ _ h => batonAbort_memWf h) h

/-! ### Commands -/

theorem opAdmit_memWf {ord : List Nat} {tc addr : Nat} {rid : U32} {err : Bool} (h : MemWf e) :
    MemWf (opAdmit ord tc rid addr err e).eng := by
  unfold opAdmit
  dsimp only
  refine .ite_eng h (.ite_eng h (.ite_eng h (.ite_eng h (.ite_eng h ?_))))
  split
  · exact startWalk_kept memKeptKv (placeReq_kept memKeptKv (count_kept memKept (tcount_kept memKept (takeUid_memWf
      h))))
  · exact parkAt_memWf (count_kept memKept (tcount_kept memKept (takeUid_memWf h)))
  · exact h

theorem opPause_memWf {tc : Nat} {rid : U32} {ttl tier : Nat} (h : MemWf e) :
    MemWf (opPause tc rid ttl tier e).eng := by
  unfold opPause
  split
  · exact h
  · exact h
  · split
    · exact h
    · exact modReq_memWf h
    · exact modReq_memWf h
    · exact h

theorem opResume_memWf {ord : List Nat} {tc : Nat} {rid : U32} (h : MemWf e) : MemWf (opResume ord tc rid e).eng := by
  unfold opResume
  split
  · exact h
  · exact h
  · split
    · exact h
    · exact h
    · exact h
    · exact .ite (modReq_memWf h) (startWalk_kept memKeptKv (modReq_memWf h))
    · exact h

theorem opCancel_memWf {tc : Nat} {rid : U32} (h : MemWf e) : MemWf (opCancel tc rid e).eng := by
  unfold opCancel
  split
  · exact h
  · exact .ite_eng h (endParked_memWf h)
  · exact .ite_eng h (endSlot_memWf h)

theorem opSetBudget_memWf {tc : Nat} {rid : U32} {mt ns : Nat} (h : MemWf e) :
    MemWf (opSetBudget tc rid mt ns e).eng := by
  unfold opSetBudget
  split
  · exact h
  · exact .ite_eng h (.ite (rolloutEnd_memWf (endParked_memWf (modParked_kept memKeptKv h))) (modParked_kept memKeptKv
      h))
  · exact .ite_eng h (.ite (rolloutEnd_memWf (endSlot_memWf (setReq_kept memKeptKv h))) (setReq_kept memKeptKv h))

theorem opHandoff_memWf {tc : Nat} {rid peer : U32} (h : MemWf e) : MemWf (opHandoff tc rid peer e).eng := by
  unfold opHandoff
  split
  · exact h
  · exact h
  · exact .ite_eng h (.ite_eng h (.ite (modReq_memWf (modKv_kept memKeptKv h)) (offerSend_memWf (modReq_memWf
      (modKv_kept memKeptKv h)))))

theorem stopmClear_memWf {tc : Nat} {hd : U32} (h : MemWf e) : MemWf (stopmClear tc hd e) :=
  .foldl (fun _ _ h => modParked_kept memKeptKv h) (.foldl (fun _ _ h => modReq_memWf h) h)

theorem opRegionPublish_memWf {tc addr bytes kind : Nat} {handle : U32} {err : Bool} (h : MemWf e) :
    MemWf (opRegionPublish tc addr bytes kind handle err e).eng := by
  unfold opRegionPublish
  refine .ite_eng h (.ite_eng ?_ (.ite_eng h (.ite_eng h (stopmClear_memWf (.upd h)))))
  split
  · exact h
  · exact .ite_eng h (.upd h)

/-! ### Models, adapters and expert sets -/

theorem adviceNow_memWf (h : MemWf e) : MemWf (adviceNow e) := h

theorem opModelRegister_memWf {addr model : Nat} {err : Bool} (h : MemWf e) :
    MemWf (opModelRegister addr model err e).eng :=
  .ite_eng h (.ite_eng h (.ite_eng h (.ite_eng h (adviceNow_memWf (.upd h)))))

theorem dropDrafts_memWf {model : Nat} (h : MemWf e) : MemWf (dropDrafts model e) := by
  unfold dropDrafts
  refine .foldl (fun e x h => modWork_kept memKeptKv ?_) h
  split
  · exact dropStream_memWf (bumpSat_kept memKept h)
  · exact h

theorem dropNodes_memWf {p : Node → Bool} (h : MemWf e) : MemWf (dropNodes p e) := by
  unfold dropNodes
  refine .foldl (fun e x h => ?_) h
  split
  · exact removeTree_kept memKeptKv h
  · exact h

theorem xsetWrite_memWf {key : Nat} {x : XSet} (h : MemWf e) : MemWf (xsetWrite key x e) := .ite (wrN_kept memKept h) h
theorem xsetDisown_memWf {p : Nat → XSet → Bool} (h : MemWf e) : MemWf (xsetDisown p e) := h
theorem xsetsFree_memWf (h : MemWf e) : MemWf (xsetsFree e) := .upd (.ite (.foldl (fun _ _ h => wrN_kept memKept h) h)
    h)

theorem opModelEvict_memWf {model : Nat} (h : MemWf e) : MemWf (opModelEvict model e).eng := by
  unfold opModelEvict
  split
  · exact h
  · exact .ite_eng h (adviceNow_memWf (xsetDisown_memWf (.upd (dropNodes_memWf (dropDrafts_memWf h)))))

theorem opAdapterRegister_memWf {tc addr model adapter version rank : Nat} (h : MemWf e) :
    MemWf (opAdapterRegister tc addr model adapter version rank e).eng := by
  unfold opAdapterRegister
  split
  · exact h
  · refine .ite_eng h (.ite_eng h ?_)
    split
    · exact h
    · exact .ite_eng h (.upd h)

theorem opAdapterRetire_memWf {tc model adapter version force : Nat} (h : MemWf e) :
    MemWf (opAdapterRetire tc model adapter version force e).eng := by
  unfold opAdapterRetire
  split
  · exact h
  · exact .ite_eng (.upd h) (.upd (.upd h))

theorem repins_memWf (h : MemWf e) : MemWf (repins e) :=
  .foldl (fun _ _ h => modParked_kept memKeptKv h) (bumpOpen_kept memKept (.upd h))

theorem freeRetired_memWf (h : MemWf e) : MemWf (freeRetired e) := h
theorem retireTenant_memWf {tc : Nat} (h : MemWf e) : MemWf (retireTenant tc e) := h

theorem opExpertSet_memWf {tc addr model set : Nat} (h : MemWf e) : MemWf (opExpertSet tc addr model set e).eng := by
  unfold opExpertSet
  split
  · exact h
  · exact .ite_eng h (.ite_eng h (xsetWrite_memWf (.upd h)))

/-! ### Learning -/

theorem modLearnSt_memWf {f : LearnSt → LearnSt} (h : MemWf e) : MemWf (modLearnSt f e) := h
theorem modWin_memWf {f : Win → Win} (h : MemWf e) : MemWf (modWin f e) := h
theorem turnIrq_memWf {tc ie : Nat} (h : MemWf e) : MemWf (turnIrq tc ie e) := .ite (raiseVec_kept memKept h) h

theorem parkSlot_memWf {slot entry cause : Nat} (h : MemWf e) : MemWf (parkSlot slot entry cause e) := by
  unfold parkSlot
  dsimp only
  split
  · exact releaseKv_memWf h
  · exact parkAt_memWf (.upd (releaseKv_memWf h))

theorem turnPark_memWf {slot : Nat} (h : MemWf e) : MemWf (turnPark slot e) := by
  unfold turnPark
  split
  · exact parkSlot_memWf h
  · split
    · exact h
    · exact .ite h (bumpSat_kept memKept (modEng_kept memKeptKv h))

theorem theldPark_memWf {tc : Nat} (h : MemWf e) : MemWf (theldPark tc e) :=
  .foldl (fun _ _ h => .ite (turnPark_memWf h) h) h

theorem enterIdle_memWf {tc : Nat} (h : MemWf e) : MemWf (enterIdle tc e) :=
  .foldl (fun _ _ h => opComplete_kept memKept h) (modLearn_memWf h)

theorem turnBoundary_memWf {tc : Nat} (h : MemWf e) : MemWf (turnBoundary tc e) :=
  .ite (enterIdle_memWf (.foldl (fun _ _ h => turnPark_memWf h) h)) (.foldl (fun _ _ h => turnPark_memWf h) h)

theorem modRollout_memWf {tc entry : Nat} {f : Rollout → Rollout} (h : MemWf e) :
    MemWf (modRollout tc entry f e) := by
  unfold modRollout
  split
  · exact setRollout_memWf h
  · exact h

theorem scaleLoss_memWf (h : MemWf e) : MemWf (scaleLoss e) := h

theorem openWindow_memWf {tc : Nat} (h : MemWf e) : MemWf (openWindow tc e) := by
  unfold openWindow
  split
  · dsimp only
    split
    · exact h
    · exact modLearnSt_memWf (.foldl (fun _ _ h => .foldl (fun _ _ h => modRollout_memWf h) h) (modLearn_memWf (.ite h
        (scaleLoss_memWf h))))
  · dsimp only
    split
    · exact h
    · exact modLearnSt_memWf (.foldl (fun _ _ h => .foldl (fun _ _ h => modRollout_memWf h) h) (modLearn_memWf h))

theorem closeWindow_memWf {tc : Nat} {w : Win} {last : Nat} (h : MemWf e) : MemWf (closeWindow tc w last e) :=
  turnIrq_memWf (count_kept memKept (modLearn_memWf (modLearnSt_memWf (wr_kept memKept h))))

theorem passStep_memWf {tc : Nat} (h : MemWf e) : MemWf (passStep tc e) := by
  unfold passStep
  split
  · exact h
  · exact .ite h (.ite (modWin_memWf h) (.ite (closeWindow_memWf (.foldl (fun _ _ h => modRollout_memWf h) h))
      (modWin_memWf (.foldl (fun _ _ h => modRollout_memWf h) h))))

theorem stashHigh_memWf (h : MemWf e) : MemWf (stashHigh e) := by
  unfold stashHigh
  split
  · split
    · exact .ite (modWin_memWf h) h
    · exact h
  · exact h

theorem stashSample_memWf {level spill : U64} (h : MemWf e) : MemWf (stashSample level spill e) :=
  modWin_memWf (bumpOpen_kept memKept (modLearnSt_memWf h))

theorem amaxSample_memWf {tensor : Nat} {v : U32} (h : MemWf e) : MemWf (amaxSample tensor v e) :=
  .ite h (modLearnSt_memWf h)

theorem digestSample_memWf {tensor check : Nat} {v : U32} (h : MemWf e) : MemWf (digestSample tensor check v e) := by
  unfold digestSample
  split
  · exact .ite (modLearnSt_memWf h) h
  · exact h

theorem fenceCheck_memWf {tc : Nat} {hp : Heat} (h : MemWf e) : MemWf (fenceCheck tc hp e) := by
  unfold fenceCheck
  split
  · exact h
  · exact .ite h (turnIrq_memWf (modWin_memWf (.foldl (fun _ _ h => modRollout_memWf h) (bumpSat_kept memKept (.foldl
      (fun _ _ h => fault_kept memKept h) h)))))

theorem checksEval_memWf {tc : Nat} (h : MemWf e) : MemWf (checksEval tc e) := by
  unfold checksEval
  refine modLearnSt_memWf (.foldl (fun e x h => ?_) h)
  split
  · exact modWin_memWf (bumpSat_kept memKept h)
  · exact .ite (turnIrq_memWf (modWin_memWf (bumpSat_kept memKept h))) h

theorem amaxEnter_memWf (h : MemWf e) : MemWf (amaxEnter e) := h

theorem learnComplete_memWf {tc : Nat} (h : MemWf e) : MemWf (learnComplete tc e) := by
  unfold learnComplete
  split
  · exact h
  · exact .ite h (.ite (modLearnSt_memWf (checksEval_memWf (amaxEnter_memWf (.ite (fenceCheck_memWf (modWin_memWf h))
      (modWin_memWf h))))) (checksEval_memWf (amaxEnter_memWf (.ite (fenceCheck_memWf (modWin_memWf h))
      (modWin_memWf h)))))

theorem projNow_memWf {tc : Nat} (h : MemWf e) : MemWf (projNow tc e) :=
  .ite (modLearnSt_memWf h) (.upd (modLearnSt_memWf h))

theorem scaleWrite_memWf (h : MemWf e) : MemWf (scaleWrite e) := .ite h (.foldl (fun _ _ h => wr_kept memKept h) h)

theorem checksWrite_memWf {num : U32} {cs : List Check} (h : MemWf e) : MemWf (checksWrite num cs e) :=
  .ite h (wr_kept memKept h)

theorem chooseLearn_memWf {tc : Nat} (h : MemWf e) : MemWf (chooseLearn tc e).1 := by
  unfold chooseLearn
  split
  · refine .ite_fst h ?_
    split
    · exact bumpOpen_kept memKept h
    · refine .ite_fst (bumpOpen_kept memKept h) ?_
      dsimp only
      split <;> exact h
  · exact h

theorem learnHeat_memWf {tc : Nat} {rs : List Risk} (h : MemWf e) : MemWf (learnHeat tc rs e) := by
  unfold learnHeat
  extract_lets e1 csr pv
  split
  rename_i e2 c heq
  have h2 : MemWf e2 := .of_fst heq (chooseLearn_memWf (fallbacks_memWf h))
  refine markHeld_memWf (updateWaits_memWf (dlIrqs_memWf ?_))
  split
  · exact emitHeat_memWf (modWin_memWf h2)
  · exact emitHeat_memWf (modWin_memWf (modLearnSt_memWf h2))

theorem checksPrep_memWf {tc : Nat} (h : MemWf e) : MemWf (checksPrep tc e) := by
  unfold checksPrep
  split
  · exact .ite (modLearnSt_memWf h) (checksWrite_memWf (modLearnSt_memWf h))
  · exact modLearnSt_memWf h

theorem learnTables_memWf {tc : Nat} (h : MemWf e) : MemWf (learnTables tc e) :=
  projNow_memWf (.ite (checksPrep_memWf (scaleWrite_memWf h)) h)

theorem learnSteps_memWf (h : MemWf e) : MemWf (learnSteps e) := by
  unfold learnSteps
  split
  · exact h
  · extract_lets e1 e2 e3
    have h2 : MemWf e2 := by
      unfold e2
      split
      · exact turnBoundary_memWf (theldPark_memWf (learnComplete_memWf h))
      · exact theldPark_memWf (learnComplete_memWf h)
    have h3 : MemWf e3 := by
      unfold e3
      split
      · exact passStep_memWf h2
      · exact h2
    refine learnTables_memWf ?_
    split
    · exact openWindow_memWf h3
    · exact h3

theorem opTurnToLearn_memWf {hd : Hdr} {tc mode : Nat} (h : MemWf e) : MemWf (opTurnToLearn hd tc mode e).eng := by
  unfold opTurnToLearn
  extract_lets l noop e1
  split
  · exact .ite_eng h (modLearnSt_memWf (modLearn_memWf h))
  · exact .ite_eng (modLearn_memWf h) h
  · exact h

theorem opTurnToGenerate_memWf {ord : List Nat} {tc : Nat} {pver : U16} (h : MemWf e) :
    MemWf (opTurnToGenerate ord tc pver e).eng := by
  unfold opTurnToGenerate
  split
  · exact h
  · exact .ite_eng h (.ite (dropLearned_kept memKeptKv (turnRelease_kept memKeptKv (theldClear_kept memKeptKv
      (modLearn_memWf (modLearnSt_memWf
      (.foldl (fun _ _ h => modRollout_memWf h) (.upd h))))))) (turnRelease_kept memKeptKv (theldClear_kept memKeptKv
        (modLearn_memWf
      (modLearnSt_memWf (.foldl (fun _ _ h => modRollout_memWf h) (.upd h)))))))
  · exact h

theorem opLearnConfig_memWf {tc tokens window stash : Nat} (h : MemWf e) :
    MemWf (opLearnConfig tc tokens window stash e).eng := by
  unfold opLearnConfig
  split
  · exact h
  · exact h
  · exact modLearn_memWf h

theorem opOptStepDone_memWf {tc : Nat} {pver : U16} (h : MemWf e) : MemWf (opOptStepDone tc pver e).eng := by
  unfold opOptStepDone
  split
  · exact .ite_eng h (modLearnSt_memWf (modLearn_memWf (.foldl (fun _ _ h => freeRollout_memWf h) h)))
  · exact h

theorem opStalenessCap_memWf {tc cap : Nat} (h : MemWf e) : MemWf (opStalenessCap tc cap e).eng := h

theorem learnTeardown_memWf {tc : Nat} (h : MemWf e) : MemWf (learnTeardown tc e) :=
  .ite h (modLearn_memWf (modLearnSt_memWf (.foldl (fun _ _ h => freeRollout_memWf h) h)))

/-! ### Tenants and lanes -/

theorem answerRing_memWf {tc status : Nat} (h : MemWf e) : MemWf (answerRing tc status e) :=
  .foldl (fun _ _ h => reply_kept memKept h) (modRing_kept memKept h)

theorem clearCrEn_memWf {tc : Nat} (h : MemWf e) : MemWf (clearCrEn tc e) := h
theorem clearSrEn_memWf {tc : Nat} (h : MemWf e) : MemWf (clearSrEn tc e) := h

theorem pageReset_memWf {tc : Nat} (h : MemWf e) : MemWf (pageReset tc e) :=
  .upd (.foldl (fun _ _ h => setReg_kept memKept h) (setReg_kept memKept (setReg_kept memKept (setReg_kept memKept h))))

theorem opTenantOpen_memWf {tc addr : Nat} {err : Bool} (h : MemWf e) : MemWf (opTenantOpen tc addr err e).eng := by
  unfold opTenantOpen
  extract_lets t
  split
  · exact .ite_eng h (.ite_eng h (pageReset_memWf (setTen_memWf h)))
  · exact h

theorem endAll_memWf {tc : Nat} {st : RState} {reason : Nat} {now : Bool} (h : MemWf e) :
    MemWf (endAll tc st reason now e) :=
  .foldl (fun _ _ h => modParked_kept memKeptKv h) (.foldl (fun _ _ h => modReq_memWf h) h)

theorem opTenantClose_memWf {tc mode : Nat} (h : MemWf e) : MemWf (opTenantClose tc mode e).eng := by
  unfold opTenantClose
  refine .ite_eng h ?_
  split
  · exact h
  · exact modTen_memWf h
  · exact .ite (clearCrEn_memWf (answerRing_memWf (endAll_memWf (tenantAborts_memWf (modTen_memWf h)))))
      (modTen_memWf h)
  · exact .ite_eng (clearCrEn_memWf (answerRing_memWf (endAll_memWf (tenantAborts_memWf h)))) h

theorem opTenantQos_memWf {tc addr : Nat} {err : Bool} (h : MemWf e) : MemWf (opTenantQos tc addr err e).eng :=
  .ite_eng h (setTen_memWf h)

theorem releaseLanes_memWf {tc : Nat} (h : MemWf e) : MemWf (releaseLanes tc e) :=
  .foldl (fun _ _ h => reclaimDrop_kept memKeptKv (laneOrder_memWf (setLane_kept memKeptKv h))) h

theorem laneFree_memWf {l : Nat} (h : MemWf e) : MemWf (laneFree l e) := h

theorem laneReport_memWf {kind lane : Nat} (h : MemWf e) : MemWf (laneReport kind lane e) := by
  unfold laneReport
  dsimp only
  split
  · exact reclaimDrop_kept memKeptKv (laneFree_memWf h)
  · exact setLane_kept memKeptKv h
  · exact laneFree_memWf h
  · exact h

theorem grantLanes_memWf {tc : Nat} {ls : List Nat} (h : MemWf e) : MemWf (grantLanes tc ls e) :=
  .foldl (fun _ _ h => laneOrder_memWf (setLane_kept memKeptKv h)) h

theorem opLaneGrant_memWf {tc : Nat} {mask : U64} (h : MemWf e) : MemWf (opLaneGrant tc mask e).eng :=
  .ite_eng h (.ite_eng h (grantLanes_memWf h))

theorem opLaneReclaim_memWf {hd : Hdr} {tc budget : Nat} {mask : U64} {err : Bool} (h : MemWf e) :
    MemWf (opLaneReclaim hd tc mask budget err e).eng := by
  refine .ite_eng h (.upd (List.foldlRecOn (motive := fun x : List LaneDue × Engine => MemWf x.2) _ _
    (openU32_kept memKept h) ?_))
  exact fun _ h _ _ => setLane_kept memKeptKv (openU32_kept memKept h)

theorem laneSnap_memWf (h : MemWf e) : MemWf (laneSnap e) := h
theorem laneAdvise_memWf (h : MemWf e) : MemWf (laneAdvise e) := h

theorem stepSample_memWf {lane : Nat} {start : Stride} {cost model : Nat} (h : MemWf e) :
    MemWf (stepSample lane start cost model e) := by
  unfold stepSample
  refine .ite h ?_
  dsimp only
  split
  · exact setLane_kept memKeptKv h
  · exact .ite (bumpSat_kept memKept (.upd (setTen_memWf (setLane_kept memKeptKv h)))) (setTen_memWf (setLane_kept
      memKeptKv h))

theorem slowIrq_memWf (h : MemWf e) : MemWf (slowIrq e) := .ite h (.ite (raiseVec_kept memKept (.upd h)) (.upd h))

theorem tearMessages_memWf {tc : Nat} (h : MemWf e) : MemWf (tearMessages tc e) :=
  .foldl (fun _ _ h => lastRaise_memWf h) h

theorem tearDown_memWf {tc cls ans : Nat} (h : MemWf e) : MemWf (tearDown tc cls ans e) :=
  .ite h (notice_kept memKept (tearMessages_memWf (releaseLanes_memWf (xsetDisown_memWf (retireTenant_memWf
    (closeStreams_memWf (learnTeardown_memWf (clearCrEn_memWf (answerRing_memWf (endAll_memWf (modTen_memWf
    (tenantAborts_memWf h))))))))))))

theorem toFree_memWf {tc : Nat} (h : MemWf e) : MemWf (toFree tc e) :=
  notice_kept memKept (.upd (modTen_memWf (clearSrEn_memWf (clearCrEn_memWf h))))

theorem tenantBoundary_memWf {tc : Nat} (h : MemWf e) : MemWf (tenantBoundary tc e) := by
  unfold tenantBoundary
  refine .ite h ?_
  split
  · exact toFree_memWf (releaseLanes_memWf (xsetDisown_memWf (retireTenant_memWf (closeStreams_memWf h))))
  · exact .ite (toFree_memWf h) h
  · exact h

theorem opSeedSet_memWf {tc : Nat} {key : U128} (h : MemWf e) : MemWf (opSeedSet tc key e).eng :=
  .ite_eng h (modTen_memWf h)

theorem opStreamOpen_memWf {tc cls : Nat} {rid : U32} (h : MemWf e) : MemWf (opStreamOpen tc cls rid e).eng := by
  unfold opStreamOpen
  refine .ite_eng h (.ite_eng h ?_)
  split
  · exact h
  · exact .ite_eng h (grantWrite_memWf (setTen_memWf h))

theorem opStreamClose_memWf {tc n : Nat} (h : MemWf e) : MemWf (opStreamClose tc n e).eng :=
  .ite_eng (closeStreams_memWf h) h

theorem rowStreamClose_memWf {tc : Nat} {rid : U32} (h : MemWf e) : MemWf (rowStreamClose tc rid e) := h

/-! ### Context images -/

theorem opContextSave_memWf {tc addr bytes : Nat} (h : MemWf e) : MemWf (opContextSave tc addr bytes e).eng :=
  .ite_eng h (wr_kept memKept h)

theorem newSlot_memWf {addr : Nat} {x : Entry1} {v : Nat} (h : MemWf e) : MemWf (newSlot addr x v e) := wrN_kept
    memKept h

theorem restoreAt_memWf {ord : List Nat} {addr slot : Nat} {x : Entry1} {r : Req} {s : Restore} (h : MemWf s.eng) :
    MemWf (restoreAt ord addr slot x r s).eng := by
  unfold restoreAt
  split
  · exact newSlot_memWf (failSlot_memWf (placeReq_kept memKeptKv h))
  · exact newSlot_memWf (.ite (placeReq_kept memKeptKv h) (startWalk_kept memKeptKv (placeReq_kept memKeptKv h)))

theorem restoreSlot_memWf {ord : List Nat} {tc addr : Nat} {sstr : Stride} {s : Restore} {x : Entry1}
    (h : MemWf s.eng) : MemWf (restoreSlot ord tc addr sstr s x).eng := by
  unfold restoreSlot
  dsimp only
  split
  · exact restoreAt_memWf (takeFree_kept memKept (takeUid_memWf h))
  · exact takeFree_kept memKept (takeUid_memWf h)

theorem restorePark_memWf {ord : List Nat} {tc addr : Nat} {s : Restore} {p : Entry1 × Req} (h : MemWf s.eng) :
    MemWf (restorePark ord tc addr s p).eng := by
  unfold restorePark
  split
  · split
    · exact newSlot_memWf (endParked_memWf (parkAt_memWf h))
    · exact newSlot_memWf (parkAt_memWf h)
  · exact restoreAt_memWf h
  · exact h

theorem restoreAll_memWf {ord : List Nat} {tc addr : Nat} {sstr : Stride} {es : List Entry1} (h : MemWf e) :
    MemWf (restoreAll ord tc addr sstr es e).eng :=
  List.foldlRecOn (motive := fun s : Restore => MemWf s.eng) _ _
    (List.foldlRecOn (motive := fun s : Restore => MemWf s.eng) _ _ h fun _ h _ _ => restoreSlot_memWf h)
    fun _ h _ _ => restorePark_memWf h

theorem opContextRestore_memWf {ord : List Nat} {tc addr bytes : Nat} {err : Bool} (h : MemWf e) :
    MemWf (opContextRestore ord tc addr bytes err e).eng :=
  .ite_eng h (.ite_eng h (.ite_eng h (.ite_eng h (.ite_eng h (setReg_kept memKept (grantLanes_memWf (restoreAll_memWf
    (grantTenant_memWf (modTen_memWf h)))))))))

/-! ### Power -/

theorem setUnit_memWf {q : Option Quad} {st : Nat} (h : MemWf e) : MemWf (setUnit q st e) := by
  unfold setUnit
  split <;> exact modPwr_kept memKeptKv h

theorem tbStop_memWf {lock : Bool} (h : MemWf e) : MemWf (tbStop lock e) := .ite h (.upd h)
theorem peersDrop_memWf (h : MemWf e) : MemWf (peersDrop e) := .foldl (fun _ _ h => addExt_kept memKept h) h
theorem tbRestart_memWf (h : MemWf e) : MemWf (tbRestart e) := .ite h (peersDrop_memWf (discRec_memWf (.upd h)))
theorem retained_memWf {old e : Engine} (h : MemWf old) : MemWf (retained old e) := h
theorem brewLost_memWf {tc : Nat} (h : MemWf e) : MemWf (brewLost tc e) := h

theorem retentionInvalid_memWf (h : MemWf e) : MemWf (retentionInvalid e) :=
  discRec_memWf (.upd (setReg_kept memKept (setReg_kept memKept (setReg_kept memKept (.foldl (fun _ _ h =>
    brewLost_memWf h) h)))))

theorem retCheck_memWf (h : MemWf e) : MemWf (retCheck e) :=
  .ite h (peersDrop_memWf (retentionInvalid_memWf (.upd h)))

theorem captureEnd_memWf (h : MemWf e) : MemWf (captureEnd e) := by
  unfold captureEnd
  split
  · exact .ite (opCompleteNoCtx_kept memKept (wr_kept memKept (.upd h))) h
  · exact h

theorem engineReset_memWf (h : MemWf e) : MemWf (engineReset e) := by
  unfold engineReset
  refine modPwr_kept memKeptKv (retained_memWf (.foldl (fun _ _ h => answerRing_memWf h) (captureEnd_memWf ?_)))
  split
  · exact reply_kept memKept h
  · exact h

theorem katCheck_memWf {bad : Option U16} (h : MemWf e) : MemWf (katCheck bad e) := by
  unfold katCheck
  split
  · exact setRegF_kept memKept (modPwr_kept memKeptKv (setRegF_kept memKept h))
  · exact fault_kept memKept (modPwr_kept memKeptKv (setRegF_kept memKept h))

theorem bankFault_memWf {b : BankAt} (h : MemWf e) : MemWf (bankFault b e) :=
  .ite h (.ite (takeFree_kept memKept (takeFree_kept memKept h)) (fault_kept memKept (takeFree_kept memKept
    (takeFree_kept memKept h))))

theorem resetExit_memWf {straps : Option U8} {kat : Option U16} (h : MemWf e) : MemWf (resetExit straps kat e) :=
  .ite h (.ite (modPwr_kept memKeptKv h) (modPwr_kept memKeptKv h))

theorem resetDone_memWf (h : MemWf e) : MemWf (resetDone e) :=
  .foldl (fun _ _ h => bankFault_memWf h) (katCheck_memWf (.ite (retCheck_memWf (modPwr_kept memKeptKv h))
    (tbRestart_memWf
    (modPwr_kept memKeptKv h))))

theorem vretLost_memWf (h : MemWf e) : MemWf (vretLost e) := h

theorem opRstN_memWf {high vddaOk : Bool} {straps : U8} {kat : Option U16} {bad : List BankAt} (h : MemWf e) :
    MemWf (opRstN high vddaOk straps kat bad e) :=
  .ite (modPwr_kept memKeptKv (engineReset_memWf (modPwr_kept memKeptKv (.ite h (vretLost_memWf h))))) (.ite
    (resetExit_memWf
    (modPwr_kept memKeptKv (modPwr_kept memKeptKv (.ite h (vretLost_memWf h))))) (modPwr_kept memKeptKv (.ite h
      (vretLost_memWf h))))

theorem opBrownOut_memWf (h : MemWf e) : MemWf (opBrownOut e) :=
  .ite (modPwr_kept memKeptKv h) (modPwr_kept memKeptKv (engineReset_memWf (modPwr_kept memKeptKv h)))

theorem opBrownOutRecovery_memWf {straps : U8} {kat : Option U16} {bad : List BankAt} (h : MemWf e) :
    MemWf (opBrownOutRecovery straps kat bad e) :=
  .ite (resetExit_memWf (modPwr_kept memKeptKv (modPwr_kept memKeptKv h))) (modPwr_kept memKeptKv h)

theorem opTestMode_memWf {on instrRun : Bool} (h : MemWf e) : MemWf (opTestMode on instrRun e) :=
  .ite (modPwr_kept memKeptKv (engineReset_memWf h)) (.ite h (resetExit_memWf (modPwr_kept memKeptKv h)))

theorem opRepairWord_memWf {bank : BankAt} {word : U64} (h : MemWf e) : MemWf (opRepairWord bank word e) :=
  .ite (modPwr_kept memKeptKv h) h

theorem steepStart_memWf {len : Nat} {mustMatch : Bool} (h : MemWf e) : MemWf (steepStart len mustMatch e) :=
  memRdIssue_kept memKept (modPwr_kept memKeptKv (.upd h))

theorem steepLoad_memWf (h : MemWf e) : MemWf (steepLoad e) := .ite (steepStart_memWf h) h

theorem opSteepVerify_memWf (h : MemWf e) : MemWf (opSteepVerify e) :=
  .ite h (.ite (setUnit_memWf (modPwr_kept memKeptKv h)) (modPwr_kept memKeptKv h))

theorem startWake_memWf {q : Option Quad} (h : MemWf e) : MemWf (startWake q e) := .ite h (modPwr_kept memKeptKv h)

theorem wakeEvent_memWf {src : Nat} (h : MemWf e) : MemWf (wakeEvent src e) :=
  .foldl (fun _ _ h => .ite h (startWake_memWf h)) (modPwr_kept memKeptKv h)

theorem anchorRegs_memWf {old : Engine} {tc : Nat} (h : MemWf e) : MemWf (anchorRegs old tc e) :=
  .foldl (fun _ _ h => setReg_kept memKept h) h

theorem anchorBack_memWf {old : Engine} {tc : Nat} (h : MemWf e) : MemWf (anchorBack old tc e) :=
  setTen_memWf (anchorRegs_memWf h)

theorem deepWake_memWf (h : MemWf e) : MemWf (deepWake e) := by
  have ho : MemWf ((tenants e).foldl (fun e tc => answerRing tc sABORTED e) e) := .foldl
    (fun _ _ h => answerRing_memWf h) h
  unfold deepWake
  extract_lets old e1 _ e2 _ e3 e4
  have h4 : MemWf e4 := modPwr_kept memKeptKv (setReg_kept memKept (.upd (.upd (retained_memWf ho))))
  exact .ite h4 (.foldl (fun _ _ h => anchorBack_memWf h) h4)

theorem stopWakeReady_memWf {u : Nat} (h : MemWf e) : MemWf (stopWakeReady u e) :=
  .foldl (fun _ _ h => modRing_kept memKept h) h

theorem runWake_memWf {u : Nat} (h : MemWf e) : MemWf (runWake u e) :=
  startWake_memWf (.foldl (fun _ _ h => modRing_kept memKept h) h)

theorem stopWakeDone_memWf {u : Nat} (h : MemWf e) : MemWf (stopWakeDone u e) :=
  .ite (modPwr_kept memKeptKv (stopWakeReady_memWf h)) (payOwed_kept memKeptKv (setUnit_memWf (modPwr_kept memKeptKv
    (stopWakeReady_memWf h))))

theorem setLast_memWf {target outcome apoint : Nat} (h : MemWf e) : MemWf (setLast target outcome apoint e) :=
  setReg_kept memKept h

theorem finishH_memWf {hd : Option Hdr} (h : MemWf e) : MemWf (finishH hd e) := by
  unfold finishH
  split
  · exact opCompleteNoCtx_kept memKept h
  · exact h

theorem opQuiesceTimeout_memWf {tiles : List TileAt} (h : MemWf e) : MemWf (opQuiesceTimeout tiles e) := by
  unfold opQuiesceTimeout
  split
  · exact .ite h (finishH_memWf (setReg_kept memKept (setLast_memWf (bumpSat_kept memKept (modPwr_kept memKeptKv h)))))
  · exact h

theorem opStopGating_memWf (h : MemWf e) : MemWf (opStopGating e) := by
  unfold opStopGating
  split
  · exact h
  · exact .ite h (.ite (runWake_memWf (finishH_memWf (setUnit_memWf (modPwr_kept memKeptKv (.ite h (heatFinish_memWf
      h))))))
      (.ite (startWake_memWf (finishH_memWf (setUnit_memWf (modPwr_kept memKeptKv (.ite h (heatFinish_memWf h))))))
      (finishH_memWf (setUnit_memWf (modPwr_kept memKeptKv (.ite h (heatFinish_memWf h)))))))

theorem opPowerState_memWf {hd : Hdr} {state scope quad : Nat} (h : MemWf e) :
    MemWf (opPowerState hd state scope quad e).eng := by
  unfold opPowerState
  refine .ite_eng h (.ite_eng (.upd h) ?_)
  split
  · exact .ite (modPwr_kept memKeptKv (setUnit_memWf (modPwr_kept memKeptKv h))) (.ite (modPwr_kept memKeptKv
      (setUnit_memWf (modPwr_kept memKeptKv h)))
      (.ite (modPwr_kept memKeptKv h) (modPwr_kept memKeptKv h)))
  · exact modPwr_kept memKeptKv h
  · exact modPwr_kept memKeptKv h

theorem opSupplyWarning_memWf (h : MemWf e) : MemWf (opSupplyWarning e) :=
  .ite (modPwr_kept memKeptKv h) (count_kept memKept (bumpOpen_kept memKept (modPwr_kept memKeptKv h)))

theorem opSupplyWarningEnd_memWf (h : MemWf e) : MemWf (opSupplyWarningEnd e) := by
  unfold opSupplyWarningEnd
  dsimp only
  exact .ite h (setRegF_kept memKept (.ite_snd (takeFree_kept memKept (modPwr_kept memKeptKv h)) (modPwr_kept
    memKeptKv h)))

theorem opTbclkRestart_memWf (h : MemWf e) : MemWf (opTbclkRestart e) := .ite (tbRestart_memWf h) h

/-! ### Observation -/

theorem measure_memWf {k : Nat} (h : MemWf e) : MemWf (measure k e).2 := h

theorem counterVal_memWf {g tc i : Nat} (h : MemWf e) : MemWf (counterVal g tc i e).2 :=
  .ite_snd (measure_memWf h) (.ite_snd h (.ite_snd h h))

theorem counterVals_memWf {g tc n i : Nat} (h : MemWf e) : MemWf (counterVals g tc n i e).2 := by
  induction n generalizing i e with
  | zero => exact h
  | succ n ih => exact ih (counterVal_memWf h)

theorem latchWrite_memWf {ring g edge tc : Nat} {tag : U32} (h : MemWf e) :
    MemWf (latchWrite ring g edge tc tag e) := by
  unfold latchWrite
  dsimp only
  have hw (a : Nat) (bs : List Byte) : MemWf (wr a bs (counterVals g tc 24 0 e).2) := wr_kept memKept
    (counterVals_memWf h)
  exact .ite (.upd (hw _ _)) (modTen_memWf (hw _ _))

theorem opCounterLatch_memWf {hd : Hdr} {group edge : Nat} (h : MemWf e) :
    MemWf (opCounterLatch hd group edge e).eng :=
  .ite_eng h (latchWrite_memWf h)

theorem counterTrace_memWf {g : Nat} (h : MemWf e) : MemWf (counterTrace g e) := by
  unfold counterTrace
  dsimp only
  exact .foldl (fun _ _ h => tracePush_kept memKept h) (counterVals_memWf h)

theorem windowClose_memWf (h : MemWf e) : MemWf (windowClose e) :=
  .upd (.ite (.foldl (fun _ _ h => counterTrace_memWf h) (.ite (.foldl (fun _ _ h => latchWrite_memWf h)
    (adviceNow_memWf (.upd h))) (adviceNow_memWf (.upd h)))) (.ite (.foldl (fun _ _ h => latchWrite_memWf h)
    (adviceNow_memWf (.upd h))) (adviceNow_memWf (.upd h))))

theorem opWatchSet_memWf {tc flags : Nat} {rid : U32} (h : MemWf e) : MemWf (opWatchSet tc flags rid e).eng := by
  unfold opWatchSet
  refine .ite_eng (modTen_memWf h) ?_
  split
  · exact h
  · exact .ite_eng h (modWork_kept memKeptKv h)
  · exact .ite_eng h (modParked_kept memKeptKv h)

theorem opPcSample_memWf {sq : U4} {stall : U8} {pc : U16} {qcyc : U32} {waitOn : TileAt} (h : MemWf e) :
    MemWf (opPcSample sq stall pc qcyc waitOn e) :=
  .ite (tracePush_kept memKept h) h

theorem laneBlock_memWf {l : Nat} {sync : BitVec 2} {v : U64} (h : MemWf e) : MemWf (laneBlock l sync v e) := h

theorem sendFrame_memWf {f : List Byte} (h : MemWf e) : MemWf (sendFrame f e) :=
  .foldl (fun _ _ h => laneBlock_memWf h) h

theorem sendIdle_memWf (h : MemWf e) : MemWf (sendIdle e) := .foldl (fun _ _ h => laneBlock_memWf h) h
theorem sendMarkers_memWf (h : MemWf e) : MemWf (sendMarkers e) := .foldl (fun _ _ h => laneBlock_memWf h) h

theorem opTraceFrame_memWf (h : MemWf e) : MemWf (opTraceFrame e) :=
  .ite h (.ite (sendIdle_memWf h) (sendFrame_memWf (setRegF_kept memKept (.upd h))))

theorem opAlignmentMarker_memWf (h : MemWf e) : MemWf (opAlignmentMarker e) := .ite (sendMarkers_memWf (.upd h)) h
theorem opHangWatchdog_memWf (h : MemWf e) : MemWf (opHangWatchdog e) := .ite (hangAll_kept memKept h) h

theorem opCapture_memWf {hd : Hdr} {addr : U64} {status : Nat} (h : MemWf e) :
    MemWf (opCapture hd addr status e).eng :=
  .ite_eng h (.upd h)

theorem opFreezeMarker_memWf {q : Quad} {higher : Bool} (h : MemWf e) : MemWf (opFreezeMarker q higher e) :=
  .ite h (.ite (.upd (.upd h)) (.upd h))

theorem capWrite_memWf (h : MemWf e) : MemWf (capWrite e) := by
  unfold capWrite
  split
  · exact opCompleteNoCtx_kept memKept (.upd (wr_kept memKept h))
  · exact .upd (wr_kept memKept h)

/-! ### Faults and leadership -/

theorem modFlt_memWf {f : FltSt → FltSt} (h : MemWf e) : MemWf (modFlt f e) := h
theorem modLead_memWf {f : LeadSt → LeadSt} (h : MemWf e) : MemWf (modLead f e) := h

theorem freeSlot_memWf {slot : Nat} (h : MemWf e) : MemWf (freeSlot slot e) := by
  unfold freeSlot
  split
  · exact h
  · exact .upd (rowStreamClose_memWf (releaseKv_memWf h))

theorem freeParked_memWf {p : Parked} (h : MemWf e) : MemWf (freeParked p e) := h

theorem holdsEnd_memWf {at_ : Stride} {bnd : Bool} (h : MemWf e) : MemWf (holdsEnd at_ bnd e) :=
  .foldl (fun _ _ h => freeParked_memWf h) (.foldl (fun _ _ h => freeSlot_memWf h) h)

theorem hold32_memWf {q : Nat} {ep : U32} (h : MemWf e) : MemWf (hold32 q ep e) := h
theorem leadFault_memWf {q : Nat} {ep : U32} (h : MemWf e) : MemWf (leadFault q ep e) := fault_kept memKept h

theorem setHold_memWf {f : FltSt → FltSt} (h : MemWf e) : MemWf (setHold f e) :=
  holdWatch_kept memKept (fun _ h => modFlt_memWf h) h

theorem loseLead_memWf (h : MemWf e) : MemWf (loseLead e) := holdWatch_kept memKept (fun _ h => modLead_memWf h) h

theorem judgeQuorum_memWf (h : MemWf e) : MemWf (judgeQuorum e) := by
  unfold judgeQuorum
  refine .ite (modFlt_memWf (modLead_memWf h)) ?_
  split
  · exact modLead_memWf h
  · exact setHold_memWf (.foldl (fun _ _ h => fault_kept memKept h) (modLead_memWf h))

theorem renewStart_memWf (h : MemWf e) : MemWf (renewStart e) := by
  unfold renewStart
  split
  · exact h
  · exact .ite (modLead_memWf (modLead_memWf h)) (modLead_memWf (modLead_memWf h))

theorem resetAck_memWf {q : Nat} (h : MemWf e) : MemWf (resetAck q e) :=
  .foldl (fun _ _ h => opCompleteNoCtx_kept memKept h) (modLead_memWf h)

theorem opRenew_memWf {q : Quad} (h : MemWf e) : MemWf (opRenew q e) := by
  unfold opRenew
  split
  · exact h
  · exact .ite h (.ite (.ite (resetAck_memWf (modLead_memWf (modLead_memWf (hold32_memWf (modLead_memWf h)))))
      (modLead_memWf (hold32_memWf (modLead_memWf h)))) (modLead_memWf h))

theorem renewJudge_memWf (h : MemWf e) : MemWf (renewJudge e) := by
  unfold renewJudge
  refine .ite h ?_
  extract_lets e1 e2 ep
  have h2 : MemWf e2 := modLead_memWf (.foldl (fun _ _ h => opRenew_memWf h) h)
  split
  · exact h2
  · exact .ite (judgeQuorum_memWf h2) (leadFault_memWf (loseLead_memWf (modLead_memWf h2)))

theorem propose_memWf {p : Nat} (h : MemWf e) : MemWf (propose p e) :=
  .ite (modLead_memWf (.foldl (fun _ _ h => hold32_memWf h) h)) (leadFault_memWf (.foldl
    (fun _ _ h => hold32_memWf h) h))

theorem election_memWf (h : MemWf e) : MemWf (election e) :=
  .ite h (modLead_memWf (.foldl (fun _ _ h => .ite h (propose_memWf h)) h))

theorem takeOffice_memWf (h : MemWf e) : MemWf (takeOffice e) := by
  unfold takeOffice
  split
  · exact h
  · exact .ite (modLead_memWf h) (judgeQuorum_memWf (modLead_memWf h))

theorem contain_memWf {c : Contain} (h : MemWf e) : MemWf (contain c e) := by
  unfold contain
  split
  · exact failSlot_memWf h
  · exact endParked_memWf h
  · exact reclaimDrop_kept memKeptKv (laneFree_memWf h)
  · exact .ite h (setHold_memWf (modLead_memWf h))
  · split
    · exact setHold_memWf h
    · exact setHold_memWf h
    · exact h
    · exact h
    · exact setHold_memWf h
  · exact h

theorem opRecordClose_memWf {q : Quad} {index : Nat} (h : MemWf e) : MemWf (opRecordClose q index e) := by
  unfold opRecordClose
  refine .ite h ?_
  split
  · exact h
  · exact .ite (recClose_kept memKept h) h

theorem opIrqRelease_memWf {c : FaultClass} (h : MemWf e) : MemWf (opIrqRelease c e) :=
  .ite h (raiseVec_kept memKept (modFlt_memWf h))

theorem sqDrop_memWf {p : Option (U8 × U32)} (h : MemWf e) : MemWf (sqDrop p e) := by
  unfold sqDrop
  split
  · exact h
  · split
    · exact h
    · refine reply_kept memKept ?_
      split
      · exact planRelease_memWf (modRing_kept memKept h)
      · exact modRing_kept memKept h

theorem opFaultReport_memWf {cls : FaultClass} {tc : U8} {obj : FaultObj} {s : Site} {detail : U64} {packet : Option
    (U8 × U32)} (h : MemWf e) : MemWf (opFaultReport cls tc obj s detail packet e) :=
  .ite h (.ite (sqDrop_memWf (faultAt_kept memKept h)) (faultAt_kept memKept h))

theorem opStitchError_memWf {link : Quad} (h : MemWf e) : MemWf (opStitchError link e) :=
  fault_kept memKept (fault_kept memKept (modLead_memWf (takeFree_kept memKept (takeFree_kept memKept h))))

theorem resetSlot_memWf {slot : Nat} (h : MemWf e) : MemWf (resetSlot slot e) := by
  unfold resetSlot
  split
  · exact h
  · refine .ite (freeSlot_memWf h) ?_
    extract_lets e1
    have h1 : MemWf e1 := by
      unfold e1
      split
      · exact .ite (batonAbort_memWf h) h
      · exact h
    split
    · exact parkSlot_memWf h1
    · exact modWork_kept memKeptKv (failSlot_memWf h1)

theorem resetStatus_memWf {q tc : Nat} (h : MemWf e) : MemWf (resetStatus q tc e) :=
  .ite h (setReg_kept memKept (modRing_kept memKept h))

theorem resetHeat_memWf {n : Nat} (h : MemWf e) : MemWf (resetHeat n e) := h
theorem resetPorts_memWf {q : Quad} (h : MemWf e) : MemWf (resetPorts q e) := h
theorem resetShare_memWf {n : Nat} (h : MemWf e) : MemWf (resetShare n e) := h

theorem reloadStart_memWf {q : Quad} (h : MemWf e) : MemWf (reloadStart q e) :=
  .ite h (.foldl (fun _ _ h => memRdIssue_kept memKept h) (modLead_memWf h))

theorem quadReset_memWf {q : Quad} (h : MemWf e) : MemWf (quadReset q e) := by
  unfold quadReset
  extract_lets n e1 mine e2 _ e3 e4 e5 e6 e7 e8
  have h2 : MemWf e2 := .foldl (fun _ _ h => resetSlot_memWf h) (captureEnd_memWf h)
  have h4 : MemWf e4 := .foldl (fun _ _ h => answerRing_memWf h) (.upd h2)
  have h6 : MemWf e6 := resetShare_memWf (resetPorts_memWf (resetHeat_memWf (.foldl
    (fun _ _ h => resetStatus_memWf h) h4)))
  exact reloadStart_memWf (setHold_memWf (scaleLoss_memWf (modLead_memWf (.ite (loseLead_memWf h6) h6))))

theorem shareFill_memWf {n : Nat} (h : MemWf e) : MemWf (shareFill n e) := by
  unfold shareFill
  refine .foldl (fun e x h => ?_) h
  split
  · exact h
  · exact .upd h

theorem opRejoin_memWf {q src : Quad} (h : MemWf e) : MemWf (opRejoin q src e) := by
  unfold opRejoin
  split
  · exact h
  · exact .ite h (.ite (.upd (shareFill_memWf (modLead_memWf h))) (fault_kept memKept (takeFree_kept memKept
      ((takeFree_kept memKept)
      (modLead_memWf (modLead_memWf h))))))

theorem opResetQuadrant_memWf {hd : Hdr} {index : Nat} (h : MemWf e) : MemWf (opResetQuadrant hd index e).eng :=
  .ite_eng h (modLead_memWf (quadReset_memWf h))

theorem opResetTenant_memWf {hd : Hdr} {index : Nat} (h : MemWf e) : MemWf (opResetTenant hd index e).eng :=
  .ite_eng h (.ite_eng (.upd (.foldl (fun _ _ h => laneFree_memWf h) (fault_kept memKept h))) (modFlt_memWf
    (fault_kept memKept h)))

theorem opResetLane_memWf {hd : Hdr} {index : Nat} (h : MemWf e) : MemWf (opResetLane hd index e).eng :=
  .ite_eng h (.upd (reclaimDrop_kept memKeptKv (laneFree_memWf (modFlt_memWf (faultAt_kept memKept h)))))

theorem teardownNow_memWf {tc : U8} {cls : FaultClass} (h : MemWf e) : MemWf (teardownNow tc cls e) :=
  .foldl (fun _ _ h => opCompleteNoCtx_kept memKept h) (.ite (modFlt_memWf (.ite (tearDown_memWf (replayRec_memWf
    (markBreak_memWf h))) h)) (.ite (tearDown_memWf (replayRec_memWf (markBreak_memWf h))) h))

theorem opTeardown_memWf {tc : U8} {cls : FaultClass} (h : MemWf e) : MemWf (opTeardown tc cls e) := by
  unfold opTeardown
  split
  · exact addExt_kept memKept h
  · exact .ite h (teardownNow_memWf (.upd h))

theorem opContain_memWf {cls : FaultClass} {tc : U8} {obj : FaultObj} (h : MemWf e) :
    MemWf (opContain cls tc obj e) :=
  .ite (opTeardown_memWf h) (contain_memWf (modFlt_memWf h))

theorem opHoldClear_memWf {v : Nat} (h : MemWf e) : MemWf (opHoldClear v e) := h

/-! ### Power state entries -/

theorem quadWake_memWf {q : Quad} {back : Nat} (h : MemWf e) : MemWf (quadWake q back e) :=
  .ite (reloadStart_memWf (setUnit_memWf h)) (setUnit_memWf h)

theorem deepWakeDone_memWf {origin back : Nat} (h : MemWf e) : MemWf (deepWakeDone origin back e) := by
  unfold deepWakeDone
  extract_lets _ e1 e2 e3
  have h2 : MemWf e2 := setUnit_memWf (.ite (.upd h) (deepWake_memWf h))
  have h3 : MemWf e3 := .ite (retCheck_memWf h2) (tbRestart_memWf h2)
  exact .ite h3 (steepStart_memWf h3)

theorem wakeDone_memWf {w : Waking} (h : MemWf e) : MemWf (wakeDone w e) := by
  unfold wakeDone
  refine .ite (resetDone_memWf h) (.ite (stopWakeDone_memWf (.ite (retCheck_memWf h) h)) ?_)
  split
  · exact payOwed_kept memKeptKv (quadWake_memWf (modPwr_kept memKeptKv h))
  · exact .ite (payOwed_kept memKeptKv (retCheck_memWf (setUnit_memWf (modPwr_kept memKeptKv h)))) (payOwed_kept
      memKeptKv (deepWakeDone_memWf
      (modPwr_kept memKeptKv h)))

theorem opWakeStage_memWf (h : MemWf e) : MemWf (opWakeStage e) := by
  unfold opWakeStage
  split
  · exact h
  · split
    · exact h
    · exact .ite h (.ite (wakeDone_memWf (modPwr_kept memKeptKv h)) (modPwr_kept memKeptKv h))

theorem entered_memWf {x : Entry} (h : MemWf e) : MemWf (entered x e) := by
  unfold entered
  extract_lets u e1 e2 e3
  have h2 : MemWf e2 := setUnit_memWf (modPwr_kept memKeptKv (setLast_memWf (bumpSat_kept memKept h)))
  have h3 : MemWf e3 := by
    unfold e3
    refine .ite ?_ h2
    split
    · exact quadReset_memWf h2
    · exact scaleLoss_memWf h2
  exact .ite (startWake_memWf h3) h3

theorem entryAbort_memWf {x : Entry} {k : Nat} (h : MemWf e) : MemWf (entryAbort x k e) :=
  finishH_memWf (.ite (tbRestart_memWf (setLast_memWf (bumpSat_kept memKept h))) (setLast_memWf (bumpSat_kept memKept
    h)))

theorem entryEffect_memWf {x : Entry} {k : Nat} (h : MemWf e) : MemWf (entryEffect x k e) :=
  .ite h (.ite (departAll_memWf (.upd (.ite (sayBreak_memWf h) h))) (.ite (tbStop_memWf h) h))

theorem opEntryStep_memWf (h : MemWf e) : MemWf (opEntryStep e) := by
  unfold opEntryStep
  split
  · exact h
  · exact .ite (entryAbort_memWf (modPwr_kept memKeptKv (entryEffect_memWf h))) (.ite (entered_memWf ((modPwr_kept
      memKeptKv)
      (entryEffect_memWf h))) (modPwr_kept memKeptKv (entryEffect_memWf h)))

/-! ### Packets taking effect -/

theorem opSetStrideRate_memWf {nsps : U32} (h : MemWf e) : MemWf (opSetStrideRate nsps e).eng := .ite_eng h (.upd h)

theorem opResetScope_memWf {hd : Hdr} {scope index : Nat} (h : MemWf e) :
    MemWf (opResetScope hd scope index e).eng := by
  unfold opResetScope
  split
  · exact opResetQuadrant_memWf h
  · exact opResetTenant_memWf h
  · exact opResetLane_memWf h

theorem effect_memWf {ord : List Nat} {hd : Hdr} {cmd : Cmd} {late err : Bool} (h : MemWf e) :
    MemWf (effect ord hd cmd late err e).eng := by
  unfold effect
  split
  · exact h
  · exact opSetStrideRate_memWf h
  · exact opPolicyLoad_memWf h
  · exact opPlanLoad_memWf h
  · exact opTenantOpen_memWf h
  · exact opTenantClose_memWf h
  · exact opTenantQos_memWf h
  · exact opLaneGrant_memWf h
  · exact opLaneReclaim_memWf h
  · exact opContextSave_memWf h
  · exact opContextRestore_memWf h
  · exact opResetScope_memWf h
  · exact opPowerState_memWf h
  · exact opCapture_memWf h
  · exact opAdmit_memWf h
  · exact opPause_memWf h
  · exact opResume_memWf h
  · exact opCancel_memWf h
  · exact opSetBudget_memWf h
  · exact opHandoff_memWf h
  · exact opRegionPublish_memWf h
  · exact opModelRegister_memWf h
  · exact opModelEvict_memWf h
  · exact opAdapterRegister_memWf h
  · exact opAdapterRetire_memWf h
  · exact opExpertSet_memWf h
  · exact opTurnToLearn_memWf h
  · exact opTurnToGenerate_memWf h
  · exact opLearnConfig_memWf h
  · exact opOptStepDone_memWf h
  · exact opStalenessCap_memWf h
  · exact opSeedSet_memWf h
  · exact opStreamOpen_memWf h
  · exact opStreamClose_memWf h
  · exact opCounterLatch_memWf h
  · exact opWatchSet_memWf h

theorem reanchor_memWf {tc : Nat} (h : MemWf e) : MemWf (reanchor tc e) := h

theorem kept_memWf {cmd : Cmd} {tc : Nat} {r : Res} (h : MemWf r.eng) : MemWf (kept cmd tc r).eng :=
  .ite_eng (reanchor_memWf h) h

theorem checkedEffect_memWf {ord : List Nat} {hd : Hdr} {cmd : Cmd} {late err : Bool} (h : MemWf e) :
    MemWf (checkedEffect ord hd cmd late err e).eng := by
  unfold checkedEffect
  refine .ite_eng (kept_memWf (effect_memWf h)) ?_
  split
  · exact h
  · exact h
  · exact kept_memWf (effect_memWf h)

theorem applyCmd_memWf {ord : List Nat} {hd : Hdr} {cmd : Cmd} {late err : Bool} (h : MemWf e) :
    MemWf (applyCmd ord hd cmd late err e) :=
  reclaimSweep_kept memKeptKv (payNow_kept memKeptKv (.ite (checkedEffect_memWf h) (reply_kept memKept
    (checkedEffect_memWf h))))

theorem applyNow_memWf {hd : Hdr} {cmd : Cmd} (h : MemWf e) : MemWf (applyNow hd cmd e) :=
  settled_kept memKeptKv (.ite (checkedEffect_memWf h) (reply_kept memKept (checkedEffect_memWf h)))

/-! ### The work of a stride -/

theorem modTime_memWf {f : TimeSt → TimeSt} (h : MemWf e) : MemWf (modTime f e) := h
theorem modSched_memWf {f : SchedSt → SchedSt} (h : MemWf e) : MemWf (modSched f e) := h

theorem modAcc_memWf {tc : Nat} {ridx : U32} {f : Machine.Acc → Machine.Acc} (h : MemWf e) :
    MemWf (modAcc tc ridx f e) :=
  h

theorem dropAcc_memWf {tc : Nat} {ridx : U32} (h : MemWf e) : MemWf (dropAcc tc ridx e) := h

theorem applyAcc_memWf {x : Nat × U32} (h : MemWf e) : MemWf (applyAcc x e) := by
  unfold applyAcc
  split
  · exact h
  · exact .ite (applyCmd_memWf (dropAcc_memWf h)) (modAcc_memWf h)

theorem cmdsAt_memWf {n : Stride} (h : MemWf e) : MemWf (cmdsAt n e) := .foldl (fun _ _ h => applyAcc_memWf h) h

theorem opPrepComplete_memWf {tc : Nat} {ridx : U32} (h : MemWf e) : MemWf (opPrepComplete tc ridx e) := by
  unfold opPrepComplete
  split
  · exact h
  · exact .ite (applyAcc_memWf (markBreak_memWf h)) h

theorem lateCmds_memWf (h : MemWf e) : MemWf (lateCmds e) := .foldl (fun _ _ h => opPrepComplete_memWf h) h
theorem walksAt_memWf {n : Stride} (h : MemWf e) : MemWf (walksAt n e) := h

theorem walkRun_memWf {slot : Nat} (h : MemWf e) : MemWf (walkRun slot e) := by
  unfold walkRun
  split
  · exact h
  · exact .ite h (walkApply_kept memKeptKv h)

theorem walkOne_memWf {slot : Nat} (h : MemWf e) : MemWf (walkOne slot e) := by
  unfold walkOne
  split
  · exact h
  · exact walkRun_memWf (.ite h (markBreak_memWf h))

theorem walksNow_memWf {n : Stride} (h : MemWf e) : MemWf (walksNow n e) :=
  .foldl (fun _ _ h => walkRun_memWf h) (walksAt_memWf h)

theorem opWalk_memWf {slot : Nat} (h : MemWf e) : MemWf (opWalk slot e) := by
  unfold opWalk
  split
  · exact h
  · exact walkOne_memWf (.foldl (fun _ _ h => walkOne_memWf h) h)

theorem nspsClose_memWf (h : MemWf e) : MemWf (nspsClose e) :=
  .ite (modTime_memWf h) (.ite (addExt_kept memKept (modTime_memWf (modTime_memWf h))) (modTime_memWf (modTime_memWf
    h)))

theorem nspsCommit_memWf {v : U32} (h : MemWf e) : MemWf (nspsCommit v e) := h

theorem extEffect_memWf {x : ExtEv} (h : MemWf e) : MemWf (extEffect x e) := by
  unfold extEffect
  split
  · exact peerArrive_memWf (replayRec_memWf h)
  · split
    · exact peerGone_memWf (replayRec_memWf h)
    · exact h
  · exact .ite h (trayGone_memWf (replayRec_memWf h))
  · exact orderDone_memWf (replayRec_memWf h)
  · exact batonIn_memWf (replayRec_memWf h)
  · exact .ite (laneReport_memWf (replayRec_memWf h)) h
  · exact nspsCommit_memWf h
  · exact teardownNow_memWf h

theorem wordSample_memWf {w : Word} (h : MemWf e) : MemWf (wordSample w e) := by
  unfold wordSample
  extract_lets now
  split
  · exact stashSample_memWf h
  · exact setLane_kept memKeptKv h
  · exact stepSample_memWf h
  · exact .ite (amaxSample_memWf h) h
  · exact .ite (digestSample_memWf h) h

theorem draftsOff_memWf (h : MemWf e) : MemWf (draftsOff e) := .ite h (.upd h)

theorem leaveAdmitted_memWf {slot : Nat} (h : MemWf e) : MemWf (leaveAdmitted slot e) := by
  unfold leaveAdmitted
  split
  · exact h
  · exact .ite (rebuildWin_memWf (modEng_kept memKeptKv h)) h

theorem slotOffers_memWf (h : MemWf e) : MemWf (slotOffers e) := by
  unfold slotOffers
  refine .foldl (fun e x h => ?_) h
  split
  · exact unparkTo_kept memKeptKv h
  · exact h

theorem boundaryFirst_memWf (h : MemWf e) : MemWf (boundaryFirst e) := by
  unfold boundaryFirst
  extract_lets e1 e2 e3 e4 e5
  have h3 : MemWf e3 := repins_memWf (draftsOff_memWf (heatFinish_memWf (modSched_memWf (.ite
    (markBreak_memWf h) h))))
  have h5 : MemWf e5 := .foldl (fun _ _ h => pauseTreat_memWf h) (.foldl (fun _ _ h => insertReq_memWf h) h3)
  exact .ite h5 (learnSteps_memWf h5)

theorem holdHeat_memWf (h : MemWf e) : MemWf (holdHeat e) := updateWaits_memWf (dlIrqs_memWf (.ite h (.upd h)))

theorem boundaryRest_memWf (h : MemWf e) : MemWf (boundaryRest e) := by
  unfold boundaryRest
  extract_lets e1 e2 e3 e4 e5 e6 e7 e8
  have h7 : MemWf e7 := slowIrq_memWf (slotOffers_memWf (.foldl (fun _ _ h => leaveAdmitted_memWf h) (.foldl
    (fun _ _ h => streamsFree_memWf h) (freeRetired_memWf (.foldl (fun _ _ h => tenantBoundary_memWf h)
      (xsetsFree_memWf (holdsEnd_memWf h)))))))
  split
  rename_i e9 rs heq
  extract_lets e10 e11
  have h10 : MemWf e10 := countStale_memWf (.of_fst heq (project_memWf (lateRules_memWf h7)))
  refine laneSnap_memWf (.ite (holdHeat_memWf h10) ?_)
  split
  · exact learnHeat_memWf h10
  · exact genHeat_memWf h10

theorem boundaryRun_memWf (h : MemWf e) : MemWf (boundaryRun e) :=
  .ite (capFreeze_kept memKeptKv (modSched_memWf (boundaryFirst_memWf h))) (boundaryRest_memWf (boundaryFirst_memWf h))

theorem dutyRun_memWf {d : Duty} (h : MemWf e) : MemWf (dutyRun d e) := by
  unfold dutyRun
  split
  · exact nspsClose_memWf h
  · exact renewStart_memWf h
  · exact ttlScan_memWf h
  · exact holdsEnd_memWf h
  · exact .ite (holdsEnd_memWf (modSched_memWf h)) (boundaryRun_memWf h)
  · exact boundaryRest_memWf h
  · exact windowClose_memWf h

theorem runDuties_memWf {n : Nat} {upto : Option Duty} (h : MemWf e) : MemWf (runDuties n upto e) := by
  induction n generalizing e with
  | zero => exact h
  | succ n ih =>
    unfold runDuties
    split
    · exact h
    · exact .ite h (.ite (dutyRun_memWf (modSched_memWf h)) (ih (dutyRun_memWf (modSched_memWf h))))

theorem opDuty_memWf {d : Duty} (h : MemWf e) : MemWf (opDuty d e) := .ite (runDuties_memWf h) h
theorem opBoundary_memWf (h : MemWf e) : MemWf (opBoundary e) := opDuty_memWf h

theorem finishStride_memWf (h : MemWf e) : MemWf (finishStride e) := by
  unfold finishStride
  refine sayBreak_memWf (batonTimeouts_memWf ?_)
  split
  · exact runDuties_memWf (holdsEnd_memWf (modSched_memWf (runDuties_memWf (lateCmds_memWf h))))
  · exact runDuties_memWf (lateCmds_memWf h)

theorem skippedWork_memWf {s : Stride} (h : MemWf e) : MemWf (skippedWork s e) := by
  unfold skippedWork
  extract_lets e1 on e2 e3
  have h2 : MemWf e2 := .ite (modTime_memWf (nspsClose_memWf (walksNow_memWf (cmdsAt_memWf h)))) (walksNow_memWf
    (cmdsAt_memWf h))
  have h3 : MemWf e3 := .ite (ttlScan_memWf (.ite (renewStart_memWf h2) h2)) (.ite (renewStart_memWf h2) h2)
  exact .ite (windowClose_memWf (holdsEnd_memWf h3)) (holdsEnd_memWf h3)

theorem flagIn_memWf {bnd : Bool} (h : MemWf e) : MemWf (flagIn bnd e) :=
  .ite h (.ite (fault_kept memKept (modSched_memWf (modSched_memWf h))) (modSched_memWf h))

theorem register_memWf {num : Stride} {bnd : Bool} {prev : Option Stride} {wake : Bool} (h : MemWf e) :
    MemWf (register num bnd prev wake e) := by
  unfold register
  extract_lets gap e1 plain bnd exts words due e2 e3 _ _ e4 e5 first e6 e7 e8 e9 e10 e11 e12 e13
  have h3 : MemWf e3 := modFlt_memWf (modSched_memWf (modTime_memWf (renewJudge_memWf h)))
  have h6 : MemWf e6 := .ite (markBreak_memWf (.ite (bumpSat_kept memKept (.upd h3)) (.upd h3))) (.ite (markBreak_memWf
    (faultAt_kept memKept (.ite (bumpSat_kept memKept (.upd h3)) (.upd h3)))) (.ite (bumpSat_kept memKept (.upd h3))
      (.upd h3)))
  have h8 : MemWf e8 := stashHigh_memWf (.foldl (fun _ _ h => wordSample_memWf h) (election_memWf
    (takeOffice_memWf h6)))
  have h10 : MemWf e10 := .foldl (fun _ _ h => contain_memWf h) (.foldl (fun _ _ h => extEffect_memWf h) h8)
  have h11 : MemWf e11 := by
    unfold e11
    split
    · exact .foldl (fun _ _ h => skippedWork_memWf h) h10
    · exact h10
  have h12 : MemWf e12 := capNow_kept memKeptKv (offersDue_memWf (walksAt_memWf (cmdsAt_memWf h11)))
  exact modSched_memWf (flagIn_memWf h12)

theorem opStride_memWf {num : Stride} {bnd : Bool} {hclk : Nat} (h : MemWf e) : MemWf (opStride num bnd hclk e) :=
  .ite h (.ite (bumpSat_kept memKept (modTime_memWf h)) (.ite (faultAt_kept memKept (modTime_memWf h)) (register_memWf
    (finishStride_memWf (modTime_memWf h)))))

theorem opHoldEnd_memWf (h : MemWf e) : MemWf (opHoldEnd e) := opDuty_memWf h

theorem opNspsAuto_memWf (h : MemWf e) : MemWf (opNspsAuto e) :=
  .foldl (fun _ _ h => extEffect_memWf h) (modSched_memWf h)

/-! ### Packets at fetch and memory responses -/

theorem acceptPkt_memWf {tc : Nat} {p : List Byte} {o : OpRow} {ridx : U32} (h : MemWf e) :
    MemWf (acceptPkt tc p o ridx e) := by
  unfold acceptPkt
  dsimp only
  split
  · refine .ite (runWake_memWf (memRdIssue_kept memKept ?_)) (memRdIssue_kept memKept ?_)
    · split
      · exact planReserve_memWf (srStall_kept memKept (modRing_kept memKept h))
      · exact srStall_kept memKept (modRing_kept memKept h)
    · split
      · exact planReserve_memWf (srStall_kept memKept (modRing_kept memKept h))
      · exact srStall_kept memKept (modRing_kept memKept h)
  · refine memRdIssue_kept memKept ?_
    split
    · exact planReserve_memWf (srStall_kept memKept (modRing_kept memKept h))
    · exact srStall_kept memKept (modRing_kept memKept h)

theorem fetchCount_memWf {tc n : Nat} (h : MemWf e) : MemWf (fetchCount tc n e) := h

theorem opFetch_memWf {tc : Nat} {pkt : List Byte} {err : Bool} (h : MemWf e) : MemWf (opFetch tc pkt err e) := by
  unfold opFetch
  refine .ite h (.ite (setRegF_kept memKept h) (.ite h (.ite (fetchCount_memWf h) (.ite (reply_kept memKept
    ((fault_kept memKept)
    (setRegF_kept memKept (takeFree_kept memKept (setReg_kept memKept (fetchCount_memWf h)))))) ?_))))
  split
  · exact .ite (acceptPkt_memWf (setReg_kept memKept (fetchCount_memWf h))) (reply_kept memKept (setReg_kept memKept
      (fetchCount_memWf h)))
  · exact reply_kept memKept (setReg_kept memKept (fetchCount_memWf h))

theorem srVisible_memWf {tc n : Nat} (h : MemWf e) : MemWf (srVisible tc n e) := by
  induction n generalizing e with
  | zero => exact h
  | succ n ih =>
    unfold srVisible
    split
    · refine .ite (ih ?_) h
      split
      · exact raiseVec_kept memKept (setReg_kept memKept (modRing_kept memKept h))
      · exact setReg_kept memKept (modRing_kept memKept h)
    · exact h

theorem writeSeen_memWf {tc : Nat} {idx : U32} (h : MemWf e) : MemWf (writeSeen tc idx e) :=
  srVisible_memWf (modRing_kept memKept h)

theorem prepRead_memWf {tc : U8} {ridx : U32} {err : Bool} (h : MemWf e) : MemWf (prepRead tc ridx err e) := h
theorem lineBad_memWf {a : Nat} (h : MemWf e) : MemWf (lineBad a e) := h
theorem lineGood_memWf {a : Nat} (h : MemWf e) : MemWf (lineGood a e) := h
theorem reloadRead_memWf {q : Quad} {err : Bool} (h : MemWf e) : MemWf (reloadRead q err e) := h
theorem steepRead_memWf {err : Bool} (h : MemWf e) : MemWf (steepRead err e) := h

theorem readDone_memWf {who : MemWho} {err : Bool} (h : MemWf e) : MemWf (readDone who err e) := by
  cases who with
  | prep => exact prepRead_memWf h
  | reload => exact reloadRead_memWf h
  | steep => exact steepRead_memWf h
  | window => exact kvReadyCheck_kept memKeptKv h
  | status | walk | late | none => exact h

theorem readFails_memWf {cls : FaultClass} {r : MemReq} (h : MemWf e) : MemWf (readFails cls r e) :=
  .ite (.ite h (fault_kept memKept h)) (readDone_memWf (lineBad_memWf (.ite h (fault_kept memKept h))))

theorem opMemResponse_memWf {port : Quad} {tag : U8} {err : Bool} {data : List Byte} (h : MemWf e) :
    MemWf (opMemResponse port tag err data e) := by
  unfold opMemResponse
  extract_lets k _ e1
  split
  · exact bumpSat_kept memKept h
  · refine .ite (bumpSat_kept memKept (memPump_memWf (.upd h))) (.ite ?_ (.ite (readFails_memWf (memPump_memWf (.upd
      h)))
      (readDone_memWf (lineGood_memWf (wr_kept memKept (memPump_memWf (.upd h)))))))
    split
    · exact writeSeen_memWf (memPump_memWf (.upd h))
    · exact memPump_memWf (.upd h)

theorem opMemTimeout_memWf {port : Quad} {tag : U8} (h : MemWf e) : MemWf (opMemTimeout port tag e) := by
  unfold opMemTimeout
  dsimp only
  split
  · exact h
  · exact .ite h (readFails_memWf (count_kept memKept (bumpSat_kept memKept (.upd h))))

/-! ### Register accesses -/

theorem regValue_memWf {o : Nat} (h : MemWf e) : MemWf (regValue o e).2 := by
  unfold regValue
  refine .ite_snd (counterVal_memWf h) (.ite_snd (takeFree_kept memKept h) ?_)
  split
  · dsimp only
    split
    · rename_i heq
      exact h
    · exact h
  · dsimp only
    split
    · rename_i heq
      exact h
    · exact h

theorem rcClear_memWf {r : RegInfo} (h : MemWf e) : MemWf (rcClear r e) := .ite h (setReg_kept memKept h)
theorem readWhole_memWf {r : RegInfo} (h : MemWf e) : MemWf (readWhole r e).2 := rcClear_memWf (regValue_memWf h)

theorem read32_memWf {o : Nat} (h : MemWf e) : MemWf (read32 o e).2 := by
  unfold read32
  split
  · exact .ite (.upd (readWhole_memWf h)) (readWhole_memWf h)
  · split
    · exact h
    · refine .ite_snd h ?_
      split
      · exact h
      · exact regValue_memWf h

theorem read64_memWf {o : Nat} (h : MemWf e) : MemWf (read64 o e).2 := by
  unfold read64
  split
  · exact .ite_snd (readWhole_memWf h) (read32_memWf (read32_memWf h))
  · dsimp only
    exact read32_memWf h

theorem opDoorbell_memWf {tc : Nat} {v : U32} (h : MemWf e) : MemWf (opDoorbell tc v e) :=
  .ite (notice_kept memKept (setRegF_kept memKept h)) (setReg_kept memKept h)

theorem opSrHead_memWf {tc : Nat} {v : U32} (h : MemWf e) : MemWf (opSrHead tc v e) :=
  reclaimOrders_kept memKeptKv (srFlush_kept memKept (setReg_kept memKept h))

theorem opRingCtrl_memWf {tc : Nat} {new : U64} (h : MemWf e) : MemWf (opRingCtrl tc new e) :=
  .ite h (.ite h (.ite (reclaimOrders_kept memKeptKv (srFlush_kept memKept (modRing_kept memKept (setReg_kept memKept
    (.ite ((setReg_kept memKept)
    (setReg_kept memKept h)) (setReg_kept memKept h)))))) (.ite (setReg_kept memKept (setReg_kept memKept h))
      (setReg_kept memKept h))))

theorem opVecCtrl_memWf {v : VecId} {new : U64} (h : MemWf e) : MemWf (opVecCtrl v new e) :=
  releaseVec_memWf (setReg_kept memKept h)

theorem opGrantBase_memWf {new : U64} (h : MemWf e) : MemWf (opGrantBase new e) :=
  .ite (.foldl (fun _ _ h => grantTenant_memWf h) (setReg_kept memKept h)) (setReg_kept memKept h)

theorem opXsetBase_memWf {new : U64} (h : MemWf e) : MemWf (opXsetBase new e) :=
  .ite (.foldl (fun _ _ h => xsetWrite_memWf h) (setReg_kept memKept h)) (setReg_kept memKept h)

theorem opIdxCtrl_memWf {new : U64} (h : MemWf e) : MemWf (opIdxCtrl new e) :=
  .ite (idxClear_memWf (setReg_kept memKept h)) (setReg_kept memKept h)

theorem opRelayCfg_memWf {new : U64} (h : MemWf e) : MemWf (opRelayCfg new e) :=
  setReg_kept memKept (.ite (departAll_memWf h) h)

theorem opBdone_memWf {v : U64} (h : MemWf e) : MemWf (opBdone v e) := orderReportIn_memWf h
theorem opStatusClear_memWf {v : U64} (h : MemWf e) : MemWf (opStatusClear v e) := h
theorem opThaw_memWf {v : U64} (h : MemWf e) : MemWf (opThaw v e) := h
theorem opRootClear_memWf {v : U64} (h : MemWf e) : MemWf (opRootClear v e) := .ite (modFlt_memWf h) h

theorem writePriv_memWf {o : Nat} {v new : U64} (h : MemWf e) : MemWf (writePriv o v new e) :=
  .ite (opVecCtrl_memWf h) (.ite (opGrantBase_memWf h) (.ite (opXsetBase_memWf h) (.ite (opIdxCtrl_memWf h) (.ite
    (opRelayCfg_memWf h) (.ite (ordFlush_kept memKeptKv (setReg_kept memKept h)) (.ite (opBdone_memWf h) (.ite
      (laneAdvise_memWf
    (setReg_kept memKept h)) (.ite (opStatusClear_memWf h) (.ite (.ite (steepLoad_memWf (setReg_kept memKept h))
      (setReg_kept memKept h))
    (.ite (.ite (wakeEvent_memWf h) h) (.ite (.upd (setReg_kept memKept h)) (.ite (.ite (hangAll_kept memKept
      (setReg_kept memKept h))
    (setReg_kept memKept h)) (.ite (opThaw_memWf h) (.ite (opHoldClear_memWf h) (.ite (opRootClear_memWf h)
    (setReg_kept memKept h))))))))))))))))

theorem writePage_memWf {tc p : Nat} {new : U64} (h : MemWf e) : MemWf (writePage tc p new e) :=
  .ite (opDoorbell_memWf h) (.ite (opSrHead_memWf h) (.ite (opRingCtrl_memWf h) (.ite (opVecCtrl_memWf h) (.ite
    (modTen_memWf (setReg_kept memKept h)) (setReg_kept memKept h)))))

theorem guardErr_memWf {o : Nat} (h : MemWf e) : MemWf (guardErr o e) := setRegF_kept memKept (bumpOpen_kept memKept h)

theorem writeWhole_memWf {r : RegInfo} {v : U64} {priv : Bool} (h : MemWf e) : MemWf (writeWhole r v priv e) :=
  .ite h (.ite (.ite (guardErr_memWf h) (writePriv_memWf h)) (.ite (guardErr_memWf h) (writePage_memWf h)))

theorem write32_memWf {o : Nat} {v : U64} {priv : Bool} (h : MemWf e) : MemWf (write32 o v priv e) := by
  unfold write32
  split
  · exact .ite (.upd h) (writeWhole_memWf h)
  · split
    · exact h
    · exact .ite h (writeWhole_memWf (.upd h))

theorem setWins_memWf {e e' t : Engine} (h : MemWf t) : MemWf (setWins e e' t) := .upd h

theorem write64_memWf {o : Nat} {v : U64} {priv : Bool} (h : MemWf e) : MemWf (write64 o v priv e) := by
  unfold write64
  split
  · exact .ite (writeWhole_memWf (.upd h)) (setWins_memWf (write32_memWf (write32_memWf h)))
  · exact write32_memWf h

theorem answer_memWf {d : U64} {err : Bool} (h : MemWf e) : MemWf (answer d err e) := h

theorem cpDo_memWf {a : CpAccess} (h : MemWf e) : MemWf (cpDo a e) := by
  unfold cpDo
  refine .ite (.ite (answer_memWf (bumpSat_kept memKept h)) (answer_memWf (takeFree_kept memKept (bumpSat_kept memKept
    h))))
    (.ite (answer_memWf (bumpOpen_kept memKept h)) (.ite (answer_memWf (.ite (write64_memWf h) (write32_memWf h)))
      (answer_memWf ?_)))
  exact .ite_snd (read64_memWf h) (read32_memWf h)

theorem cpWake_memWf (h : MemWf e) : MemWf (cpWake e) := .ite (wakeEvent_memWf h) h

theorem opCp_memWf {a : CpAccess} (h : MemWf e) : MemWf (opCp a e) :=
  .ite h (.ite (cpDo_memWf (cpWake_memWf h)) (.ite (modPwr_kept memKeptKv (cpWake_memWf h)) (cpWake_memWf h)))

theorem cpRelease_memWf (h : MemWf e) : MemWf (cpRelease e) :=
  .ite h (.foldl (fun _ _ h => cpDo_memWf h) (modPwr_kept memKeptKv h))

theorem opMpCredit_memWf {q : Nat} (h : MemWf e) : MemWf (opMpCredit q e) :=
  drainPass_memWf (mpFlush_kept memKept (setMp_kept memKept h))

/-! ### The kettle port -/

theorem ketReply_memWf {res : Nat} {data : List Byte} (h : MemWf e) : MemWf (ketReply res data e) := h

theorem ketFrame_memWf {addr cmd : Nat} {arg argMask : U32} {crc : U8} {act : Option KetAct} (h : MemWf e)
    (hact : ∀ f, act = some f → MemWf (f e)) : MemWf (ketFrame addr cmd arg crc argMask act e) := by
  refine .ite h (.ite (.upd h) (.ite (ketReply_memWf h) (.ite (ketReply_memWf h) (.ite (ketReply_memWf h) ?_))))
  split
  · exact ketReply_memWf h
  · exact .ite (ketReply_memWf h) (hact _ rfl)

theorem ketNop_memWf (h : MemWf e) : MemWf (ketNop e) := h
theorem ketState_memWf (h : MemWf e) : MemWf (ketState e).2 := .ite_snd (takeFree_kept memKept h) h
theorem ketStatus_memWf (h : MemWf e) : MemWf (ketStatus e) := ketReply_memWf (ketState_memWf h)

theorem ketRead_memWf {arg : U32} (h : MemWf e) : MemWf (ketRead arg e) :=
  .ite (ketReply_memWf h) (.ite (ketReply_memWf h) (.ite (ketReply_memWf h) (ketReply_memWf (takeFree_kept memKept h))))

theorem ketWake_memWf (h : MemWf e) : MemWf (ketWake e) :=
  .ite (ketReply_memWf h) (ketReply_memWf (wakeEvent_memWf h))

theorem ketArbitrate_memWf {arg : U32} (h : MemWf e) : MemWf (ketArbitrate arg e) :=
  .ite (ketReply_memWf h) (ketReply_memWf (modLead_memWf (.foldl (fun _ _ h => quadReset_memWf h) h)))

/-! ## The rows -/

/-- A meaning leaves tier-1 memory in its canonical form. -/
def KeepsMem (f : State → Host.Outcome State Machine.Fault Refusal) : Prop :=
  ∀ s t, MemWf s.eng → f s = .next t → MemWf t.eng

theorem onAny_keepsMem {f : Engine → Engine} (hf : ∀ e, MemWf e → MemWf (f e)) : KeepsMem (onAny f) := by
  intro s t h ht
  cases ht
  exact hf _ h

theorem onEng_keepsMem {f : Engine → Engine} (hf : ∀ e, MemWf e → MemWf (f e)) : KeepsMem (onEng f) :=
  onAny_keepsMem fun _ h => whenUp_memWf hf h

theorem gated_keepsMem {i : Instr} {f : Engine → Engine} (hf : ∀ e, MemWf e → MemWf (f e)) :
    KeepsMem (onEng (capGate i f)) :=
  onEng_keepsMem fun _ h => capGate_memWf hf h

theorem strideWork_keepsMem {i : Instr} {f : Engine → Engine} (hf : ∀ e, MemWf e → MemWf (f e)) :
    KeepsMem (onEng (capGate i (strideWork f))) :=
  gated_keepsMem fun _ h => strideWork_memWf hf h

theorem row_keepsMem (i : Instr) (h : Hdr) (cmd : Cmd) : KeepsMem (row i h cmd) :=
  gated_keepsMem fun _ h => applyNow_memWf h

theorem access_keepsMem (a : CpAccess) : KeepsMem (onAny (opCp a)) := onAny_keepsMem fun _ h => opCp_memWf h

/-- Every command but the release of a capture, which acts on the commands that waited. -/
theorem exec_keepsMem_of_ne {i : Instr} (hi : i ≠ .captureRelease) : KeepsMem (exec i) := by
  cases i with
  | captureRelease => exact absurd rfl hi
  | nop | setStrideRate | policyLoad | planLoad | tenantOpen | tenantClose | tenantQos | laneGrant | laneReclaim
  | contextSave | contextRestore | resetScopeQuadrant | resetScopeTenant | resetScopeLane | powerStateRun
  | powerStateStop | powerStateEntry | capture | admitReq | pause | resume | cancel | setBudget | handoff
  | regionPublish | modelRegister
  | modelEvict | adapterRegister | adapterRetire | expertSet | turnToLearn | turnToGenerate | learnConfig | optStepDone
  | stalenessCap | seedSet | streamOpen | streamClose | counterLatch | watchSet => exact row_keepsMem _ _ _
  | doorbell | statusRingHeadWrite | ringEnable | vectorCtrlWrite | holdCauseClear | steepLoad | wake | hangTake
  | laneAdvice | grantEnable | xsetEnable | indexEnable | relayEnable | bqHeadWrite | orderReport | registerWrite
  | rcRead | lowHalfReadLatch | registerRead | sleepCpAccessWake => exact access_keepsMem _
  | logitsBlock | stepDone | stashWord | laneWord | laneReport | amaxWord | digestWord =>
    exact gated_keepsMem fun _ h => drainIn_memWf h
  | beacon | depart | probe | probeReply | offer | accept | refuse | complete | abort =>
    exact onEng_keepsMem fun _ h => relayTake_memWf h
  | leaseRenewal | ttlScan | counterWindowClose | nspsWindowClose => exact strideWork_keepsMem fun _ h => opDuty_memWf h
  | boundary => exact strideWork_keepsMem fun _ h => opBoundary_memWf h
  | terminalHoldEnd => exact strideWork_keepsMem fun _ h => opHoldEnd_memWf h
  | nspsAutoCommit => exact strideWork_keepsMem fun _ h => opNspsAuto_memWf h
  | preparationComplete => exact strideWork_keepsMem fun _ h => opPrepComplete_memWf h
  | walkEffect => exact strideWork_keepsMem fun _ h => opWalk_memWf h
  | strideEvent => exact gated_keepsMem fun _ h => opStride_memWf h
  | packetFetch => exact gated_keepsMem fun _ h => opFetch_memWf h
  | memoryResponse => exact gated_keepsMem fun _ h => opMemResponse_memWf h
  | memTimeout => exact gated_keepsMem fun _ h => opMemTimeout_memWf h
  | manifestPortCredit => exact gated_keepsMem fun _ h => opMpCredit_memWf h
  | renew => exact gated_keepsMem fun _ h => opRenew_memWf h
  | partialArrival => exact gated_keepsMem fun _ h => opPartialArrival_memWf h
  | doneMarker => exact gated_keepsMem fun _ h => opDoneMarker_memWf h
  | tokenRecordIssue => exact gated_keepsMem fun _ h => opIssueRow_memWf h
  | verifyItem => exact gated_keepsMem fun _ h => opVerifyItem_memWf h
  | draftRound => exact gated_keepsMem fun _ h => opDraftRound_memWf h
  | beaconInterval => exact onEng_keepsMem fun _ h => relaySend_memWf h
  | peerDepartureTimer => exact onEng_keepsMem fun _ h => departureTimer_memWf h
  | offsetProbeRound => exact onEng_keepsMem fun _ h => opProbeRound_memWf h
  | discardedRelayMessage => exact onEng_keepsMem fun _ h => opDiscarded_memWf h
  | batonTimeout => exact onEng_keepsMem fun _ h => opBatonTimeout_memWf h
  | kettleFrameReset =>
    intro _ _ h ht
    cases ht
    exact h.upd
  | kettleNop => exact onAny_keepsMem fun _ h => ketFrame_memWf h fun _ hf => Option.some.inj hf ▸ ketNop_memWf h
  | status => exact onAny_keepsMem fun _ h => ketFrame_memWf h fun _ hf => Option.some.inj hf ▸ ketStatus_memWf h
  | read => exact onAny_keepsMem fun _ h => ketFrame_memWf h fun _ hf => Option.some.inj hf ▸ ketRead_memWf h
  | kettleWake => exact onAny_keepsMem fun _ h => ketFrame_memWf h fun _ hf => Option.some.inj hf ▸ ketWake_memWf h
  | arbitrate =>
    exact onAny_keepsMem fun _ h => ketFrame_memWf h fun _ hf => Option.some.inj hf ▸ ketArbitrate_memWf h
  | kettleUndefinedCmd => exact onAny_keepsMem fun _ h => ketFrame_memWf h nofun
  | wakeIn =>
    intro _ _ h ht
    cases ht
    exact h.when wakeEvent_memWf
  | wakeStageReady =>
    intro _ _ h ht
    cases ht
    exact .ite h (cpRelease_memWf (opWakeStage_memWf h))
  | entryStepComplete => exact onEng_keepsMem fun _ h => cpRelease_memWf (opEntryStep_memWf h)
  | quiesceTimeout => exact onEng_keepsMem fun _ h => cpRelease_memWf (opQuiesceTimeout_memWf h)
  | stopGating => exact onEng_keepsMem fun _ h => opStopGating_memWf h
  | steepVerifyComplete => exact onEng_keepsMem fun _ h => opSteepVerify_memWf h
  | tileIdleTimeout => exact onEng_keepsMem fun _ h => h
  | supplyWarning =>
    intro _ _ h ht
    cases ht
    exact .ite h (opSupplyWarning_memWf h)
  | supplyWarningEnd =>
    intro _ _ h ht
    cases ht
    exact .ite h (opSupplyWarningEnd_memWf h)
  | brownOut => exact onAny_keepsMem fun _ h => opBrownOut_memWf h
  | brownOutRecovery => exact onAny_keepsMem fun _ h => opBrownOutRecovery_memWf h
  | rstN => exact onAny_keepsMem fun _ h => opRstN_memWf h
  | retlost => exact onAny_keepsMem fun _ h => vretLost_memWf h
  | testMode => exact onAny_keepsMem fun _ h => opTestMode_memWf h
  | tbclkLockLoss => exact onEng_keepsMem fun _ h => tbStop_memWf h
  | tbclkRestart => exact onEng_keepsMem fun _ h => opTbclkRestart_memWf h
  | faultReport => exact onEng_keepsMem fun _ h => opFaultReport_memWf h
  | faultContainment => exact onEng_keepsMem fun _ h => strideWork_memWf (fun _ h => opContain_memWf h) h
  | tenantTeardown => exact onEng_keepsMem fun _ h => strideWork_memWf (fun _ h => opTeardown_memWf h) h
  | faultRecordClose => exact onEng_keepsMem fun _ h => opRecordClose_memWf h
  | faultInterruptRelease => exact onEng_keepsMem fun _ h => opIrqRelease_memWf h
  | stitchLinkError => exact onEng_keepsMem fun _ h => opStitchError_memWf h
  | quadrantRejoin => exact onEng_keepsMem fun _ h => opRejoin_memWf h
  | hangWatchdog => exact onEng_keepsMem fun _ h => opHangWatchdog_memWf h
  | freezeMarker => exact onEng_keepsMem fun _ h => opFreezeMarker_memWf h
  | pcSample => exact onEng_keepsMem fun _ h => opPcSample_memWf h
  | traceFrame => exact onEng_keepsMem fun _ h => opTraceFrame_memWf h
  | alignmentMarker => exact onEng_keepsMem fun _ h => opAlignmentMarker_memWf h
  | repairWordLoad => exact onAny_keepsMem fun _ h => opRepairWord_memWf h

/-! ## The release of a capture, and the step -/

theorem runOn_memWf {f : State → Host.Outcome State Machine.Fault Refusal} (hf : KeepsMem f) (h : MemWf e) :
    MemWf (runOn f e) := by
  unfold runOn
  split
  · rename_i t ht
    exact hf _ t h ht
  · exact h

/-- A command that a freeze holds is acted on by its own meaning; no other one is held. -/
theorem redo_eq (i : Instr) (e : Engine) : redo i e = e ∨ i ≠ .captureRelease ∧ redo i e = runOn (exec i) e := by
  cases i with
  | strideEvent | boundary | leaseRenewal | ttlScan | counterWindowClose | nspsWindowClose | nspsAutoCommit
  | terminalHoldEnd | packetFetch | preparationComplete | nop | setStrideRate | policyLoad | planLoad | tenantOpen
  | tenantClose | tenantQos | laneGrant | laneReclaim | contextSave | contextRestore | resetScopeQuadrant
  | resetScopeTenant | resetScopeLane | powerStateRun | powerStateStop | powerStateEntry | capture | admitReq | pause
  | resume | cancel | setBudget | handoff | regionPublish | modelRegister | modelEvict | adapterRegister | adapterRetire
  | expertSet | turnToLearn | turnToGenerate | learnConfig | optStepDone | stalenessCap | seedSet | streamOpen
  | streamClose | counterLatch | watchSet | logitsBlock | partialArrival | doneMarker | stepDone | tokenRecordIssue
  | verifyItem | draftRound | stashWord | laneWord | laneReport | amaxWord | digestWord | walkEffect | memoryResponse
  | memTimeout | manifestPortCredit | renew => exact .inr ⟨nofun, rfl⟩
  | _ => exact .inl rfl

theorem redo_memWf {i : Instr} (h : MemWf e) : MemWf (redo i e) := by
  rcases redo_eq i e with heq | ⟨hi, heq⟩
  · rw [heq]
    exact h
  · rw [heq]
    exact runOn_memWf (exec_keepsMem_of_ne hi) h

theorem goOn_memWf {hs : List Instr} (h : MemWf e) : MemWf (goOn hs e) :=
  .foldl (fun _ _ h => redo_memWf h) (runDuties_memWf (.foldl (fun _ _ h => redo_memWf h) h))

theorem opRelease_memWf (h : MemWf e) : MemWf (opRelease e) :=
  .ite h (.ite (goOn_memWf h.upd) (.ite h (goOn_memWf (capWrite_memWf h))))

theorem exec_keepsMem (i : Instr) : KeepsMem (exec i) := by
  by_cases hi : i = .captureRelease
  · subst hi
    exact onEng_keepsMem fun _ h => opRelease_memWf h
  · exact exec_keepsMem_of_ne hi

end MemWf

/-- Settles O58: an idle step is a tick, and every command keeps memory canonical, each by the operations it runs. -/
theorem everyStepKeepsMemoryCanonical : Obligations.EveryStepKeepsMemoryCanonical := by
  unfold Obligations.EveryStepKeepsMemoryCanonical
  intro s t h hst
  cases hp : s.pending with
  | nil =>
    rw [step_nil s hp] at hst
    cases hst
    exact tick_memWf h
  | cons c rest =>
    rw [step_cons c rest s hp] at hst
    exact exec_keepsMem c { s with pending := rest } t h hst

end Sys2Proof.Proofs

/-! # The front command, and the kettle port (R330-R333, R395) -/

namespace Sys2Proof.Proofs

open Sys2Proof Sys2Proof.Machine Sys2Proof.Certs Sys2Proof.Laws

/-! ## A step -/

/-- Settles O1: by the equation of `step` for a queue that is not empty. -/
theorem stepRunsTheFrontCommand : Obligations.StepRunsTheFrontCommand := by
  unfold Obligations.StepRunsTheFrontCommand
  exact fun c rest s => step_cons c rest { s with pending := c :: rest } rfl

/-! ## Kettle frames (R330-R333) -/

section
variable {e : Engine} {addr crc : U8} {cmd : Nat} {arg mask : U32} {act : Option KetAct} {f : KetAct}

/-- A frame the engine hears and answers is one whose checks begin with the CRC. -/
theorem ketFrame_heard (h : Hears e addr) :
    e.ket.deaf = false ∧ ¬ (addr.toNat ≠ regN e rKET_CTRL 7 0 ∧ addr.toNat ≠ 0xFF) ∧ e.pwr.holdTest = false := by
  obtain ⟨hdeaf, haddr, htest⟩ := h
  exact ⟨hdeaf, fun ⟨h1, h2⟩ => haddr.elim h1 fun h => h2 (h ▸ rfl), htest⟩

theorem ketFrame_wrongCrc (h : Hears e addr) (hc : crc ≠ crc8 (le 1 addr.toNat ++ le 1 cmd ++ le 4 arg.toNat)) :
    ketFrame addr.toNat cmd arg crc mask act e = ketReply 1 [] e := by
  obtain ⟨hdeaf, hmine, htest⟩ := ketFrame_heard h
  unfold ketFrame
  rw [if_neg (by simp [hdeaf]), if_neg hmine, if_neg (by simp [htest]), if_pos (Ne.symm hc)]

theorem ketFrame_rightCrc (h : Hears e addr) (hall : addr ≠ 0xFF#8 ∨ cmd = 0 ∨ cmd = 1 ∨ cmd = 3) :
    ketFrame addr.toNat cmd arg (crc8 (le 1 addr.toNat ++ le 1 cmd ++ le 4 arg.toNat)) mask (some f) e =
      if arg &&& ~~~mask ≠ 0 then ketReply 2 [] e else f e := by
  obtain ⟨hdeaf, hmine, htest⟩ := ketFrame_heard h
  have hcall : ¬ (addr.toNat = 0xFF ∧ cmd ≠ 0 ∧ cmd ≠ 1 ∧ cmd ≠ 3) := by
    rintro ⟨ha, h0, h1, h3⟩
    rcases hall with hff | hcmd | hcmd | hcmd
    · exact hff (BitVec.eq_of_toNat_eq ha)
    · exact h0 hcmd
    · exact h1 hcmd
    · exact h3 hcmd
  unfold ketFrame
  rw [if_neg (by simp [hdeaf]), if_neg hmine, if_neg (by simp [htest]), if_neg (by simp), if_neg hcall]

theorem ketFrame_undefined (h : Hears e addr) (hff : addr ≠ 0xFF#8) :
    ketFrame addr.toNat cmd arg (crc8 (le 1 addr.toNat ++ le 1 cmd ++ le 4 arg.toNat)) mask none e = ketReply 2 [] e
      := by
  obtain ⟨hdeaf, hmine, htest⟩ := ketFrame_heard h
  unfold ketFrame
  rw [if_neg (by simp [hdeaf]), if_neg hmine, if_neg (by simp [htest]), if_neg (by simp),
    if_neg fun ⟨ha, _⟩ => hff (BitVec.eq_of_toNat_eq ha)]

end

theorem and_high_eq_zero (a : U32) (n : Nat) : a &&& (BitVec.allOnes 32 <<< n) = 0#32 ↔ a.toNat < 2 ^ n := by
  rw [← BitVec.shiftLeft_ushiftRight, ← BitVec.toNat_inj]
  have hlt : a.toNat / 2 ^ n * 2 ^ n < 2 ^ 32 := Nat.lt_of_le_of_lt (Nat.div_mul_le_self _ _) a.isLt
  have hpos : 0 < 2 ^ n := Nat.two_pow_pos n
  simp only [BitVec.toNat_shiftLeft, BitVec.toNat_ushiftRight, Nat.shiftRight_eq_div_pow, Nat.shiftLeft_eq,
    Nat.mod_eq_of_lt hlt, BitVec.toNat_ofNat, Nat.zero_mod, Nat.mul_eq_zero, Nat.ne_of_gt hpos, or_false, Nat.div_eq_zero_iff,
      false_or]

theorem arbitrateReserved_iff (a : U32) : a &&& ~~~0xF#32 ≠ 0 ↔ 16 ≤ a.toNat := by
  rw [show ~~~0xF#32 = BitVec.allOnes 32 <<< 4 from rfl, Ne, show (0 : U32) = 0#32 from rfl, and_high_eq_zero a 4]
  omega

/-- The reserved ARG bits of READ: the low three, and those from bit 20 up. -/
theorem readReserved_iff (a : U32) : a &&& ~~~0xFFFF8#32 ≠ 0 ↔ a.toNat % 8 ≠ 0 ∨ 2 ^ 20 ≤ a.toNat := by
  have hlow : a &&& 7#32 = 0#32 ↔ a.toNat % 8 = 0 := by
    rw [← BitVec.toNat_inj, BitVec.toNat_and]
    exact iff_of_eq (congrArg (· = 0) (Nat.and_two_pow_sub_one_eq_mod a.toNat 3))
  rw [show ~~~0xFFFF8#32 = 7#32 ||| BitVec.allOnes 32 <<< 20 from rfl, BitVec.and_or_distrib_left, Ne,
    show (0 : U32) = 0#32 from rfl, BitVec.or_eq_zero_iff, hlow, and_high_eq_zero a 20]
  omega

theorem le_eq_of_mod_eq {n : Nat} : ∀ {v w : Nat}, v % 256 ^ n = w % 256 ^ n → le n v = le n w := by
  induction n with
  | zero => exact fun _ => rfl
  | succ n ih =>
    intro v w h
    rw [Nat.pow_succ'] at h
    have hbyte : v % 256 = w % 256 := by
      rw [← Nat.mod_mul_right_mod v 256 (256 ^ n), h, Nat.mod_mul_right_mod]
    have hrest : v / 256 % 256 ^ n = w / 256 % 256 ^ n := by
      rw [← Nat.mod_mul_right_div_self, h, Nat.mod_mul_right_div_self]
    simp only [le, ih hrest, List.cons.injEq, and_true]
    exact BitVec.eq_of_toNat_eq hbyte

/-- The ARG of a READ of word `w` of quadrant `q` in AREA `a`. -/
def readArg (a : Nat) (q : Quad) (w : BitVec 13) : U32 := BitVec.ofNat 32 (a * 2 ^ 18 + q.toNat * 2 ^ 16 + w.toNat * 8)

theorem readArg_toNat {a : Nat} (q : Quad) (w : BitVec 13) (ha : a < 4) :
    (readArg a q w).toNat = a * 2 ^ 18 + q.toNat * 2 ^ 16 + w.toNat * 8 := by
  have := q.isLt
  have := w.isLt
  rw [readArg, BitVec.toNat_ofNat]
  omega

theorem readArg_fields {a : Nat} (q : Quad) (w : BitVec 13) (ha : a < 4) :
    nbits (readArg a q w).toNat 19 18 = a ∧ nbits (readArg a q w).toNat 17 16 = q.toNat
      ∧ nbits (readArg a q w).toNat 15 3 = w.toNat := by
  have := q.isLt
  have := w.isLt
  rw [readArg_toNat q w ha]
  simp only [nbits, Nat.shiftRight_eq_div_pow]
  omega

theorem exec_read {s : State} {addr : U8} {a : Nat} (q : Quad) (w : BitVec 13) (h : Hears s.eng addr) (hff : addr ≠
    0xFF#8)
    (ha : a < 4) :
    exec (.read addr (readArg a q w) (frameCrc addr 2 (readArg a q w))) s = goes s (ketRead (readArg a q w) s.eng) := by
  have hres : ¬ (readArg a q w &&& ~~~0xFFFF8#32 ≠ 0) := by
    have := q.isLt
    have := w.isLt
    rw [readReserved_iff, readArg_toNat q w ha]
    omega
  exact (onAny_eq _ s).trans (congrArg (goes s) ((ketFrame_rightCrc h (.inl hff)).trans (if_neg hres)))

/-- What READ answers for each AREA it defines. -/
theorem ketRead_word {e : Engine} {a : Nat} (q : Quad) (w : BitVec 13) (ha : a < 3) :
    ketRead (readArg a q w) e =
      if a = 0 then ketReply 0 (le 8 (hangWord (hangOf e q.toNat) w.toNat).toNat) e
      else if a = 1 ∧ w.toNat < 3584 then ketReply 0 (le 8 (faultWord e q.toNat (w.toNat / 8) (w.toNat % 8)).toNat) e
      else ketReply 0 (le 8 (takeFree e).1.toNat) (takeFree e).2 := by
  obtain ⟨hA, hQ, hW⟩ := readArg_fields q w (by omega : a < 4)
  simp only [ketRead, hA, hQ, hW, if_neg (by omega : a ≠ 3)]

theorem fields_five (i j k l m a b c d f : Nat) :
    (fields [(i, a), (j, b), (k, c), (l, d), (m, f)]).toNat
      = (a * 2 ^ i + b * 2 ^ j + c * 2 ^ k + d * 2 ^ l + f * 2 ^ m) % 2 ^ 64 := by
  simp only [fields, BitVec.toNat_ofNat, List.map_cons, List.map_nil, List.sum_cons, List.sum_nil, Nat.add_zero,
    Nat.add_assoc]

/-- The state code has three bits in the word of STATUS. -/
theorem fields_status_low (st hold bad quorum epoch : Nat) :
    (fields [(29, st), (28, hold), (27, bad), (24, quorum), (0, epoch)]).toNat % 256 ^ 4
      = ((st % 8) * 2 ^ 29 + hold * 2 ^ 28 + bad * 2 ^ 27 + quorum * 2 ^ 24 + epoch) % 256 ^ 4 := by
  rw [fields_five]
  omega

theorem ketStatus_up {e : Engine} (h : inReset e = false) :
    ketStatus e = ketReply 0 (le 4 ((unitCode e 4 % 8) * 2 ^ 29 + b2n (inHold e) * 2 ^ 28 + b2n e.pwr.placementBad * 2
      ^ 27
      + popc (e.lead.quorum.setWidth 64) 4 * 2 ^ 24 + e.time.epoch.toNat)) e := by
  rw [← le_eq_of_mod_eq (fields_status_low (unitCode e 4) _ _ _ _)]
  simp only [ketStatus, ketState, h, Bool.false_eq_true, if_false]

/-- Settles O4: the frame passes, and STATUS and READ are what their equations say. -/
theorem kettleStatusAndReads : Obligations.KettleStatusAndReads := by
  unfold Obligations.KettleStatusAndReads
  refine ⟨fun s addr h hr => ⟨_, ?_, rfl⟩, fun s addr q w h hff => ⟨⟨_, rfl, ?_⟩, fun hw => ⟨_, rfl, ?_⟩,
    fun a ha => ⟨_, rfl, ?_⟩⟩⟩
  · exact (onAny_eq _ s).trans (congrArg (goes s) ((ketFrame_rightCrc h (by simp)).trans
      ((if_neg (by simp)).trans (ketStatus_up hr))))
  · have hread := exec_read (a := 0) q w h hff (by omega)
    rw [ketRead_word q w (by omega), readArg, Nat.zero_mul, Nat.zero_add] at hread
    exact hread
  · have hread := exec_read (a := 1) q w h hff (by omega)
    rw [ketRead_word q w (by omega), if_neg (by omega), if_pos ⟨rfl, hw⟩, readArg, Nat.one_mul] at hread
    exact hread
  · have hread := exec_read (a := a) q w h hff (by omega)
    rw [ketRead_word q w (by omega), if_neg (by omega), if_neg (by omega)] at hread
    exact hread

theorem arbAllowed_of_two (m : U4) : m.getLsbD 0 = true → m ≠ 0b0001#4 → m ≠ 0b0101#4 → arbAllowed m = true := by
  decide +revert

theorem ketWake_possible {e : Engine} (hr : inReset e = false) (hw : wakePossible 3 e = true) :
    ketWake e = ketReply 0 [] (wakeEvent 3 e) := by
  simp only [ketWake, hr, hw, Bool.not_true, Bool.or_self, Bool.false_eq_true, if_false]

theorem ketArbitrate_allowed {e : Engine} {m : U4} (hs : inService e = true) (hp : e.lead.pacer = none)
    (hm : arbAllowed m = true) :
    ketArbitrate (m.setWidth 32) e = ketReply 0 [] (modLead (fun l => { l with arbMask := some m })
      (((List.range 4).filter (fun q => !m.getLsbD q)).foldl (fun e q => quadReset (BitVec.ofNat 2 q) e) e)) := by
  have hmask : (m.setWidth 32).setWidth 4 = m := by simp
  simp only [ketArbitrate, hmask, hs, hp, hm, Option.isSome_none, Bool.not_true, Bool.or_self, Bool.false_eq_true,
    if_false]

/-- Settles O3: each frame passes its checks and runs its command. -/
theorem kettleCommandsAct : Obligations.KettleCommandsAct := by
  unfold Obligations.KettleCommandsAct
  refine ⟨fun s addr cmd arg => ⟨rfl, fun h => ?_, fun h hff hcmd => ?_⟩, fun s addr m h => ⟨fun hr hw => ⟨_, rfl, ?_⟩,
    fun hff hs hp h0 h1 h5 => ⟨_, rfl, ?_⟩⟩⟩
  · exact (onAny_eq _ s).trans (congrArg (goes s) ((ketFrame_rightCrc h (by simp)).trans (if_neg (by simp))))
  · exact (onAny_eq _ s).trans (congrArg (goes s) (ketFrame_undefined h hff))
  · exact (onAny_eq _ s).trans (congrArg (goes s) ((ketFrame_rightCrc h (by simp)).trans
      ((if_neg (by simp)).trans (ketWake_possible hr hw))))
  · have hres : ¬ (m.setWidth 32 &&& ~~~0xF#32 ≠ 0) := by
      rw [arbitrateReserved_iff]
      simp
      omega
    exact (onAny_eq _ s).trans (congrArg (goes s) ((ketFrame_rightCrc h (.inl hff)).trans
      ((if_neg hres).trans (ketArbitrate_allowed hs hp (arbAllowed_of_two m h0 h1 h5)))))

/-- Settles O5: the CRC is judged first, then the reserved bits, whatever the command. -/
theorem kettleBadFramesOnlyReply : Obligations.KettleBadFramesOnlyReply := by
  unfold Obligations.KettleBadFramesOnlyReply
  intro s addr crc arg h res
  have wrong {cmd mask act} (hc : crc ≠ crc8 (le 1 addr.toNat ++ le 1 cmd ++ le 4 arg.toNat)) :
      onAny (ketFrame addr.toNat cmd arg crc mask act) s = res 1 := by
    rw [onAny_eq, ketFrame_wrongCrc h hc]
    rfl
  have reserved {cmd mask f} (hall : addr ≠ 0xFF#8 ∨ cmd = 0 ∨ cmd = 1 ∨ cmd = 3) (hr : arg &&& ~~~mask ≠ 0) :
      onAny (ketFrame addr.toNat cmd arg (crc8 (le 1 addr.toNat ++ le 1 cmd ++ le 4 arg.toNat)) mask (some f)) s
        = res 2 := by
    rw [onAny_eq, ketFrame_rightCrc h hall, if_pos hr]
    rfl
  have hne (ha : arg ≠ 0) : arg &&& ~~~0#32 ≠ 0 := by
    rwa [show ~~~0#32 = BitVec.allOnes 32 from rfl, BitVec.and_allOnes]
  exact ⟨wrong, wrong, wrong, wrong, wrong, fun ha => reserved (by simp) (hne ha),
    fun ha => reserved (by simp) (hne ha),
    fun ha => reserved (by simp) (hne ha), fun hff hr => reserved (.inl hff) ((readReserved_iff arg).mpr hr),
    fun hff hr => reserved (.inl hff) ((arbitrateReserved_iff arg).mpr hr)⟩
end Sys2Proof.Proofs

/-! # The learner's turns and windows (R257-R273) -/

namespace Sys2Proof.Proofs

open Sys2Proof Sys2Proof.Machine Sys2Proof.Certs Sys2Proof.Laws

/-! ## OPT_STEP_DONE (R273) -/

/-- From `e` to `e'` only memory and the rollout store of tenant `tc` change, the store to `st`. -/
def StoreOnly (tc : Nat) (st : Table Rollout) (e e' : Engine) : Prop :=
  (∃ m t, e' = { e with mem := m, ten := t })
    ∧ ten e' tc = { ten e tc with learn := { (ten e tc).learn with store := st } } ∧ ∀ k, k ≠ tc → ten e' k = ten e k

theorem tdel_of_absent {α : Type} {t : Table α} {n : Nat} (h : tget? t n = none) : tdel t n = t := by
  induction t with
  | nil => rfl
  | cons p t ih =>
    obtain ⟨k, v⟩ := p
    rw [tget?] at h
    split at h
    · cases h
    next hk => rw [tdel, List.filter_cons_of_pos (by simpa using hk), ← tdel, ih h]

theorem ten_modLearn_self (tc : Nat) (f : TLearn → TLearn) (e : Engine) :
    ten (modLearn tc f e) tc = { ten e tc with learn := f (ten e tc).learn } := by simp [modLearn]

theorem ten_modLearn_other {tc k : Nat} (hk : k ≠ tc) (f : TLearn → TLearn) (e : Engine) :
    ten (modLearn tc f e) k = ten e k := modTen_other e tc k _ hk

@[simp] theorem ten_wr (a : Nat) (bs : List Byte) (e : Engine) (k : Nat) : ten (wr a bs e) k = ten e k := rfl

@[simp] theorem ten_modLearnSt (f : LearnSt → LearnSt) (e : Engine) (k : Nat) : ten (modLearnSt f e) k = ten e k := rfl

theorem freeRollout_only (tc i : Nat) (e : Engine) :
    StoreOnly tc (tdel (ten e tc).learn.store i) e (freeRollout tc i e) := by
  unfold freeRollout
  split
  next h => exact ⟨⟨_, _, rfl⟩, by rw [tdel_of_absent h], fun _ _ => rfl⟩
  next r h => exact ⟨⟨_, _, rfl⟩, by rw [ten_wr, ten_modLearn_self], fun k hk => by rw [ten_wr, ten_modLearn_other hk]⟩

theorem freeRollouts_only (tc : Nat) (l : List Nat) : ∀ e : Engine,
    StoreOnly tc (l.foldl tdel (ten e tc).learn.store) e (l.foldl (fun e i => freeRollout tc i e) e) := by
  induction l with
  | nil => exact fun e => ⟨⟨_, _, rfl⟩, rfl, fun _ _ => rfl⟩
  | cons i l ih =>
    intro e
    obtain ⟨⟨m, t, h⟩, htc, hother⟩ := freeRollout_only tc i e
    obtain ⟨⟨m', t', h'⟩, htc', hother'⟩ := ih (freeRollout tc i e)
    rw [htc] at htc'
    exact ⟨⟨m', t', by rw [List.foldl_cons, h', h]⟩, htc', fun k hk => (hother' k hk).trans (hother k hk)⟩

theorem tget?_foldl_tdel {α : Type} (l : List Nat) (i : Nat) : ∀ t : Table α,
    tget? (l.foldl tdel t) i = if i ∈ l then none else tget? t i := by
  induction l with
  | nil => simp
  | cons j l ih =>
    intro t
    by_cases hij : i = j
    · subst hij
      simp [ih]
    · simp [ih, hij, tget?_tdel_ne t hij]

section
variable {e : Engine} {tc : Nat} {w : Win} {pver : U16} (hls : (ten e tc).learn.ls = .granted)
  (hw : e.learn.win = some w)
include hls hw

theorem opOptStepDone_behind (hv : verAhead pver w.wver = false) :
    opOptStepDone tc pver e = refuse sWRONG_STATE e := by
  simp only [opOptStepDone, turnOf, hls, hw, hv, Bool.not_false, if_true]

/-- The records that go are the window's in USED. -/
theorem opOptStepDone_ahead (hv : verAhead pver w.wver = true) :
    ∃ used : List Nat,
      (∀ i, i ∈ used ↔ i ∈ w.mbs.flatMap (·.entries) ∧ ∃ r, tget? (ten e tc).learn.store i = some r ∧ r.st = 3)
      ∧ opOptStepDone tc pver e = done w.num.toNat (modLearnSt
          (fun s => { s with win := none, phaseLearned := ninsert s.phaseLearned w.model })
          (modLearn tc (fun l => { l with ls := .idle, lver := pver }) (used.foldl (fun e i => freeRollout tc i e)
            e))) := by
  refine ⟨_, ?_, by simp only [opOptStepDone, turnOf, hls, hw, hv, Bool.not_true, Bool.false_eq_true, if_false]; rfl⟩
  intro i
  rw [List.mem_filter]
  refine and_congr_right fun _ => ?_
  unfold storeAt
  cases tget? (ten e tc).learn.store i <;> simp

end

theorem exec_optStepDone {s : State} (hs : Free s) (h : Hdr) (pver : U16) (hopen : isOpen s.eng h.target.toNat = true) :
    exec (.optStepDone h pver) s = replied s h 0x33 (opOptStepDone h.target.toNat pver s.eng) :=
  row_replied hs (.optStepDone h pver) (cmd := .optStepDone pver) (.inr hopen) rfl fun _ => rfl

/-- Settles O36: the freed records are those the fold over the window's USED entries takes out of the store. -/
theorem optStepDoneEndsTheWindow : Obligations.OptStepDoneEndsTheWindow := by
  unfold Obligations.OptStepDoneEndsTheWindow
  intro s h pver w hs hopen tc hls hwin
  rw [exec_optStepDone hs h pver hopen]
  refine ⟨fun hv => ?_, fun hv => ?_⟩
  · rw [opOptStepDone_behind hls hwin hv, replied_refuse]
    rfl
  · obtain ⟨used, hused, hop⟩ := opOptStepDone_ahead hls hwin hv
    obtain ⟨⟨m, t, he⟩, htc, hother⟩ := freeRollouts_only tc used s.eng
    have hstore (i : Nat) := congrArg (fun t => tget? t.learn.store i) htc
    simp only [tget?_foldl_tdel] at hstore
    rw [hop, replied_done]
    refine ⟨_, rfl, ?_⟩
    simp only [ten_modLearnSt, ten_modLearn_self, hstore]
    refine ⟨trivial, trivial, rfl, fun i r hi hr hst => ?_, fun i hi => if_neg fun hu => hi ((hused i).mp hu).1,
      by rw [he]; rfl, by rw [he]; rfl, by rw [he]; rfl, by rw [he]; rfl, by rw [he]; rfl,
      fun k hk => (ten_modLearn_other hk _ _).trans (hother k hk)⟩
    split at hr
    · cases hr
    next hu => exact hu ((hused i).mpr ⟨hi, r, hr, hst⟩)

end Sys2Proof.Proofs

/-! # A learner's turns (R257-R265) -/

namespace Sys2Proof.Proofs

open Sys2Proof Sys2Proof.Machine Sys2Proof.Certs Sys2Proof.Laws

/-! ## What the release of parked rollouts and the reply leave of the learner -/

/-- The engine's version, its learn state and the turn state of its tenants are `v`, `l` and `f`. -/
structure LearnAs (v : U16) (l : LearnSt) (f : Nat → TLearn) (e : Engine) : Prop where
  pver : e.pver = v
  learn : e.learn = l
  turn : ∀ k, (ten e k).learn = f k

theorem learn_modRing (tc k : Nat) (f : TRing → TRing) (e : Engine) : (ten (modRing tc f e) k).learn = (ten e k).learn := by
  by_cases h : k = tc
  · subst h
    simp [modRing]
  · rw [modRing, modTen_other e tc k _ h]

theorem learnAsKept (v : U16) (l : LearnSt) (f : Nat → TLearn) : KeptKv (LearnAs v l f) where
  wr h := ⟨h.pver, h.learn, h.turn⟩
  ring h := ⟨h.pver, h.learn, fun k => (learn_modRing _ k _ _).trans (h.turn k)⟩
  upd h := ⟨h.pver, h.learn, h.turn⟩
  obj h := ⟨h.pver, h.learn, h.turn⟩

/-! ## TURN_TO_LEARN (R260, R261) -/

theorem turnLive_modLearn (tc k : Nat) (f : TLearn → TLearn) (e : Engine) :
    turnLive (modLearn tc f e) k = turnLive e k := rfl

theorem opTurnToLearn_gen {e : Engine} {tc : Nat} (h : Hdr) (mode : Nat) (hls : (ten e tc).learn.ls = .gen)
    (hown : e.learn.owner = none) (htok : (ten e tc).learn.tokens ≠ 0) (hro : roBase e tc ≠ 0) :
    opTurnToLearn h tc mode e = done (turnLive e tc) (modLearnSt
      (fun s => { s with owner := some tc, phaseLearned := [], win := none, deferred := [] })
      (modLearn tc (fun l => { l with ls := .turning, park := mode == 1, turnPkts := [h] }) e)) := by
  simp [opTurnToLearn, hls, hown, htok, hro, turnLive_modLearn]

theorem exec_turnToLearn {s : State} (hs : Free s) (h : Hdr) (mode : U8) (hopen : isOpen s.eng h.target.toNat = true) :
    exec (.turnToLearn h mode) s = replied s h 0x30 (opTurnToLearn h h.target.toNat mode.toNat s.eng) :=
  row_replied hs (.turnToLearn h mode) (cmd := .turnToLearn mode) (.inr hopen) rfl fun _ => rfl

theorem beq_one_toNat (m : U8) : (m.toNat == 1) = (m == 1) := by
  rw [Bool.eq_iff_iff, beq_iff_eq, beq_iff_eq, ← BitVec.toNat_inj]
  rfl

/-! ## TURN_TO_GENERATE (R260, R265) -/

theorem exec_turnToGenerate {s : State} (hs : Free s) (h : Hdr) (pver : U16)
    (hopen : isOpen s.eng h.target.toNat = true) :
    exec (.turnToGenerate h pver) s =
      replied s h 0x31 (opTurnToGenerate [h.ring.toNat, h.ridx.toNat] h.target.toNat pver s.eng) :=
  row_replied hs (.turnToGenerate h pver) (cmd := .turnToGenerate pver) (.inr hopen) rfl fun _ => rfl

theorem modRollout_pver (tc i : Nat) (f : Rollout → Rollout) (e : Engine) : (modRollout tc i f e).pver = e.pver := by
  unfold modRollout
  split
  · rw [setRollout, wr_pver, modLearn_pver]
  · rfl

/-- The turn ends the same way whatever rollouts it releases and drops: the version is set, the phase is given up, and
the tenant generates. -/
theorem opTurnToGenerate_idle {e : Engine} {tc : Nat} (ord : List Nat) {pver : U16} (hls : (ten e tc).learn.ls = .idle)
    (hv : verAhead e.pver pver = false) :
    ∃ e' l f, opTurnToGenerate ord tc pver e = done pver.toNat e' ∧ LearnAs pver l f e'
      ∧ l.owner = none ∧ l.win = none ∧ (f tc).ls = .gen ∧ (f tc).park = false := by
  simp only [opTurnToGenerate, turnOf, hls, hv, Bool.false_eq_true, if_false]
  generalize hd : List.foldl _ { e with pver := pver } _ = d
  have hpver : d.pver = pver := by
    rw [← hd]
    exact List.foldlRecOn _ _ (motive := fun e : Engine => e.pver = pver) rfl
      fun _ hb _ _ => (modRollout_pver _ _ _ _).trans hb
  generalize hg : modLearn tc _ _ = g
  have hself : (ten g tc).learn = { (ten d tc).learn with ls := .gen, park := false, turnPkts := [] } := by
    rw [← hg, ten_modLearn_self]
    rfl
  have hlearn : g.learn = { d.learn with owner := none, deferred := [], phaseLearned := [], win := none } := by
    rw [← hg]
    rfl
  have hP := learnAsKept pver g.learn (fun k => (ten g k).learn)
  have hkept := turnRelease_kept hP (tc := tc) (ord := ord)
    (theldClear_kept hP (tc := tc) ⟨by rw [← hpver, ← hg]; rfl, rfl, fun _ => rfl⟩)
  exact ⟨_, _, _, rfl, hP.when hkept (dropLearned_kept hP), by rw [hlearn], by rw [hlearn], by rw [hself], by rw [hself]⟩

/-- Settles O35: neither the rollouts the turn releases and drops nor the reply touch the learner's state. -/
theorem turnsOfTheLearner : Obligations.TurnsOfTheLearner := by
  unfold Obligations.TurnsOfTheLearner
  intro s h mode pver hs hopen e tc t
  refine ⟨fun hls hown htok hro => ?_, fun hls hv => ?_⟩
  · rw [exec_turnToLearn hs h mode hopen, opTurnToLearn_gen h mode.toNat hls hown htok hro, beq_one_toNat, replied_done]
    rfl
  · obtain ⟨e', l, f, hop, has, howner, hwin, hgen, hpark⟩ :=
      opTurnToGenerate_idle [h.ring.toNat, h.ridx.toNat] hls hv
    have hP := learnAsKept pver l f
    obtain ⟨hpver, hlearn, hturn⟩ : LearnAs pver l f (settled (reply h 0x31 0 pver.toNat e')) :=
      settled_kept hP (reply_kept hP.toKept has)
    rw [exec_turnToGenerate hs h pver hopen, hop, replied_done]
    exact ⟨_, rfl, rfl, hpver, hlearn ▸ howner, hlearn ▸ hwin, hturn tc ▸ hgen, hturn tc ▸ hpark⟩

end Sys2Proof.Proofs

/-! # Faults, lanes and scoped resets (R293-R300, R383-R399) -/

namespace Sys2Proof.Proofs

open Sys2Proof Sys2Proof.Machine Sys2Proof.Certs Sys2Proof.Laws

/-! ## What reporting a fault leaves unchanged (R383-R390) -/

/-- Only registers, the sampled events, faults, ports, counters, traces, snapshots and free values may change. -/
def FaultOnly (e e' : Engine) : Prop :=
  ∃ regs sched flt port cnt trace hang free, e' = { e with regs, sched, flt, port, cnt, trace, hang, free }

theorem FaultOnly.refl (e : Engine) : FaultOnly e e := ⟨_, _, _, _, _, _, _, _, rfl⟩

theorem FaultOnly.trans {a b c : Engine} (h : FaultOnly a b) (h' : FaultOnly b c) : FaultOnly a c := by
  obtain ⟨_, _, _, _, _, _, _, _, rfl⟩ := h
  obtain ⟨_, _, _, _, _, _, _, _, rfl⟩ := h'
  exact ⟨_, _, _, _, _, _, _, _, rfl⟩

theorem FaultOnly.foldl {α : Type} {f : Engine → α → Engine} (hf : ∀ e x, FaultOnly e (f e x)) (l : List α) (e :
    Engine) :
    FaultOnly e (l.foldl f e) :=
  List.foldlRecOn l f (.refl e) fun b hb x _ => hb.trans (hf b x)

theorem FaultOnly.ite {c : Prop} [Decidable c] {e a b : Engine} (ha : FaultOnly e a) (hb : FaultOnly e b) :
    FaultOnly e (if c then a else b) := by
  split
  · exact ha
  · exact hb

theorem bumpOpen_faultOnly (o hi lo n : Nat) (e : Engine) : FaultOnly e (bumpOpen o hi lo n e) := by
  obtain ⟨_, _, h⟩ := bumpOpen_frame o hi lo n e
  exact ⟨_, _, _, _, _, _, _, _, h⟩

theorem bumpSat_faultOnly (o hi lo n : Nat) (e : Engine) : FaultOnly e (bumpSat o hi lo n e) :=
  ⟨_, _, _, _, _, _, _, _, rfl⟩

theorem count_faultOnly (g i n : Nat) (e : Engine) : FaultOnly e (count g i n e) := by
  obtain ⟨_, h⟩ := count_frame g i n e
  exact ⟨_, _, _, _, _, _, _, _, h⟩

theorem tracePush_faultOnly (ty : Nat) (b : List Byte) (e : Engine) : FaultOnly e (tracePush ty b e) := by
  obtain ⟨_, _, _, h⟩ := tracePush_frame ty b e
  exact ⟨_, _, _, _, _, _, _, _, h⟩

theorem raiseVec_faultOnly (v : VecId) (e : Engine) : FaultOnly e (raiseVec v e) := by
  obtain ⟨_, _, h⟩ := raiseVec_frame v e
  exact ⟨_, _, _, _, _, _, _, _, h⟩

theorem hangSnap_faultOnly (cause q : Nat) (e : Engine) : FaultOnly e (hangSnap cause q e) :=
  .ite ⟨_, _, _, _, _, _, _, _, rfl⟩ ⟨_, _, _, _, _, _, _, _, rfl⟩

theorem hangAll_faultOnly (cause : Nat) (e : Engine) : FaultOnly e (hangAll cause e) :=
  (((hangSnap_faultOnly cause 0 e).trans (hangSnap_faultOnly cause 1 _)).trans (hangSnap_faultOnly cause 2 _)).trans
    (hangSnap_faultOnly cause 3 _)

theorem holdWatch_faultOnly {f : Engine → Engine} {e : Engine} (hf : FaultOnly e (f e)) : FaultOnly e (holdWatch f e) :=
  .ite (hf.trans (hangAll_faultOnly 2 _)) hf

theorem faultIrq_faultOnly (c : FaultClass) (scope : Nat) (e : Engine) : FaultOnly e (faultIrq c scope e) :=
  .ite (.refl e) (.ite ⟨_, _, _, _, _, _, _, _, rfl⟩
    (FaultOnly.trans ⟨_, _, _, _, _, _, _, _, rfl⟩ (raiseVec_faultOnly _ _)))

theorem recExpire_faultOnly (c : FaultClass) (root : HAddr) (e : Engine) : FaultOnly e (recExpire c root e) :=
  .foldl (fun _ _ => FaultOnly.trans ⟨_, _, _, _, _, _, _, _, rfl⟩ (tracePush_faultOnly _ _ _)) _ e

theorem faultRecord_faultOnly (c : FaultClass) (tc : U8) (scope : Nat) (root reporter : HAddr) (detail : U64)
    (fstr : Stride) (e : Engine) : FaultOnly e (faultRecord c tc scope root reporter detail fstr e) := by
  unfold faultRecord
  refine (recExpire_faultOnly c root e).trans ?_
  dsimp only
  split
  · exact ⟨_, _, _, _, _, _, _, _, rfl⟩
  · split
    · exact bumpSat_faultOnly _ _ _ _ _
    · refine FaultOnly.trans ?_ (((bumpSat_faultOnly _ _ _ _ _).trans (tracePush_faultOnly _ _ _)).trans
        (faultIrq_faultOnly _ _ _))
      exact .ite ⟨_, _, _, _, _, _, _, _, rfl⟩ ⟨_, _, _, _, _, _, _, _, rfl⟩

theorem faultContain_faultOnly (c : FaultClass) (tc : U8) (obj : FaultObj) (scope : Nat) (e : Engine) :
    FaultOnly e (faultContain c tc obj scope e) := by
  obtain ⟨_, _, h⟩ := faultContain_frame c tc obj scope e
  exact ⟨_, _, _, _, _, _, _, _, h⟩

theorem faultAt_faultOnly (c : FaultClass) (tc : U8) (obj : FaultObj) (root reporter : HAddr) (detail : U64)
    (fstr : Stride) (afterWake : Bool) (e : Engine) :
    FaultOnly e (faultAt c tc obj root reporter detail fstr afterWake e) := by
  unfold faultAt
  extract_lets scope e1 e2 e3
  have h1 : FaultOnly e e1 := (bumpOpen_faultOnly _ _ _ _ e).trans (count_faultOnly _ _ _ _)
  have h2 : FaultOnly e e2 := by
    unfold e2
    split
    case h_6 => exact h1
    all_goals exact h1.trans (count_faultOnly _ _ _ _)
  have h3 : FaultOnly e e3 := .ite h2 (h2.trans (faultRecord_faultOnly _ _ _ _ _ _ _ _))
  split
  · exact h3.trans (holdWatch_faultOnly ⟨_, _, _, _, _, _, _, _, rfl⟩)
  · exact .ite (h3.trans (holdWatch_faultOnly ⟨_, _, _, _, _, _, _, _, rfl⟩)) h3
  · exact h3
  · exact h3
  · exact h3.trans (faultContain_faultOnly _ _ _ _ _)

theorem fault_faultOnly (c : FaultClass) (tc : U8) (obj : FaultObj) (root reporter : HAddr) (detail : U64) (e :
    Engine) :
    FaultOnly e (fault c tc obj root reporter detail e) := faultAt_faultOnly _ _ _ _ _ _ _ _ _

/-! ## Lanes granted (R293) -/

theorem mem_maskLanes {m : U64} {l : Nat} : l ∈ maskLanes m ↔ l < 64 ∧ m.getLsbD l = true := by simp [maskLanes]

/-- The lanes and the manifest ports that carry their orders may change, no reclaim does. -/
def LanesOnly (e e' : Engine) : Prop := ∃ n p, e' = { e with lanes := n, port := p } ∧ n.reclaims = e.lanes.reclaims

theorem LanesOnly.trans {a b c : Engine} (h : LanesOnly a b) (h' : LanesOnly b c) : LanesOnly a c := by
  obtain ⟨n, p, rfl, hr⟩ := h
  obtain ⟨n', p', rfl, hr'⟩ := h'
  exact ⟨n', p', rfl, hr'.trans hr⟩

/-- An order is noted at its lane and goes out on a manifest port. -/
theorem laneOrder_frame (l op tc : Nat) (region pred : U32) (e : Engine) :
    LanesOnly e (laneOrder l op tc region pred e)
      ∧ laneOf (laneOrder l op tc region pred e) l = { laneOf e l with order := some e.lanes.seq }
      ∧ ∀ k, k ≠ l → laneOf (laneOrder l op tc region pred e) k = laneOf e k := by
  rw [laneOrder, laneOrderAt, mpRecords_plain]
  obtain ⟨m, hm⟩ := mpPush_frame (l % 4) _ _
  rw [hm]
  exact ⟨⟨_, _, rfl, rfl⟩, laneOf_setLane_self _ l _, fun k hk => laneOf_setLane_other _ l k _ hk⟩

theorem setLane_only (l : Nat) (x : Lane) (e : Engine) : LanesOnly e (setLane l x e) := ⟨_, _, rfl, rfl⟩

/-- The lane is granted to the tenant, with an order. -/
def GrantedTo (tc : Nat) (x : Lane) : Prop := x.st = .granted ∧ x.tc = tc ∧ x.order.isSome = true

/-- Induction on a list from its end, as a fold over it goes. -/
theorem append_induction {α : Type} {motive : List α → Prop} (nil : motive [])
    (append_singleton : ∀ l a, motive l → motive (l ++ [a])) (l : List α) : motive l := by
  rw [← l.reverse_reverse]
  induction l.reverse with
  | nil => exact nil
  | cons a l ih =>
    rw [List.reverse_cons]
    exact append_singleton _ a ih

theorem grantLanes_frame (tc : Nat) (ls : List Nat) : ∀ e : Engine,
    LanesOnly e (grantLanes tc ls e) ∧ (∀ l ∈ ls, GrantedTo tc (laneOf (grantLanes tc ls e) l))
      ∧ ∀ l, l ∉ ls → laneOf (grantLanes tc ls e) l = laneOf e l := by
  induction ls using append_induction with
  | nil => exact fun e => ⟨⟨_, _, rfl, rfl⟩, fun _ h => absurd h List.not_mem_nil, fun _ _ => rfl⟩
  | append_singleton ls l ih =>
    intro e
    obtain ⟨honly, hgranted, hother⟩ := ih e
    have hstep : grantLanes tc (ls ++ [l]) e = laneOrder l 3 tc 0 0
        (setLane l { laneOf (grantLanes tc ls e) l with st := .granted, tc := tc } (grantLanes tc ls e)) :=
      List.foldl_append
    obtain ⟨horder, hself, hrest⟩ := laneOrder_frame l 3 tc 0 0
      (setLane l { laneOf (grantLanes tc ls e) l with st := .granted, tc := tc } (grantLanes tc ls e))
    rw [← hstep] at horder hself hrest
    rw [laneOf_setLane_self] at hself
    have hkept (k : Nat) (hk : k ≠ l) : laneOf (grantLanes tc (ls ++ [l]) e) k = laneOf (grantLanes tc ls e) k :=
      (hrest k hk).trans (laneOf_setLane_other _ l k _ hk)
    refine ⟨(honly.trans (setLane_only _ _ _)).trans horder, fun k hk => ?_, fun k hk => ?_⟩
    · by_cases hkl : k = l
      · rw [hkl, hself]
        exact ⟨rfl, rfl, rfl⟩
      · rw [hkept k hkl]
        exact hgranted k (by simpa [hkl] using hk)
    · obtain ⟨hkls, hkl⟩ : k ∉ ls ∧ k ≠ l := by simpa using hk
      rw [hkept k hkl, hother k hkls]

/-! ## Lanes reclaimed (R300) -/

theorem openU32_frame (n : Nat) (e : Engine) : ∃ f, (openU32 n e).2 = { e with free := f } := by
  unfold openU32
  split <;> exact ⟨_, rfl⟩

/-- What a reclaim of the lanes `ls` leaves of the engine, with the orders that are due: the lanes are SAVING. -/
structure Saving (e : Engine) (ls : List Nat) (x : List LaneDue × Engine) : Prop where
  rest : { x.2 with lanes := e.lanes, free := e.free } = e
  reclaims : x.2.lanes.reclaims = e.lanes.reclaims
  due : x.1.map (·.lane) = ls
  lane : ∀ l, laneOf x.2 l = if l ∈ ls then { laneOf e l with st := .saving } else laneOf e l

/-- An engine that differs from `e` in lanes and the number of free values is `e` with those. -/
theorem Saving.eng {e : Engine} {ls : List Nat} {x : List LaneDue × Engine} (h : Saving e ls x) :
    x.2 = { e with lanes := x.2.lanes, free := x.2.free } := by
  obtain ⟨due, e'⟩ := x
  obtain ⟨rest, -, -, -⟩ := h
  rw [← rest]

/-- One lane of a reclaim: it is SAVING, and its STOP order is due. -/
def dueStep (x : List LaneDue × Engine) (p : Nat × Bool × Nat) : List LaneDue × Engine :=
  let (pr, e) := openU32 p.2.2 x.2
  (x.1 ++ [{ lane := p.1, op := if p.2.1 then 1 else 2, region := (laneOf e p.1).region.getD 0, pred := pr }],
    setLane p.1 { laneOf e p.1 with st := .saving } e)

theorem Saving.step {e : Engine} {ls : List Nat} {x : List LaneDue × Engine} (h : Saving e ls x) (p : Nat × Bool ×
    Nat) :
    Saving e (ls ++ [p.1]) (dueStep x p) := by
  obtain ⟨f, hf⟩ := openU32_frame p.2.2 x.2
  have hx (l : Nat) : laneOf (openU32 p.2.2 x.2).2 l = laneOf x.2 l := by rw [hf]; rfl
  have hnext : (dueStep x p).2
      = setLane p.1 { laneOf x.2 p.1 with st := .saving } { x.2 with free := f } := by
    rw [← hf, ← hx]
    rfl
  refine ⟨?_, ?_, by simp [dueStep, h.due], fun l => ?_⟩
  · rw [hnext, h.eng]
    rfl
  · rw [hnext]
    exact h.reclaims
  · rw [hnext]
    by_cases hl : l = p.1
    · subst hl
      rw [laneOf_setLane_self, h.lane]
      simp only [List.mem_append, List.mem_singleton, or_true, if_true]
      split <;> rfl
    · rw [laneOf_setLane_other _ _ _ _ hl, show laneOf { x.2 with free := f } l = laneOf x.2 l from rfl, h.lane]
      simp [hl]

theorem saving_foldl_dueStep (ps : List (Nat × Bool × Nat)) (e : Engine) :
    Saving e (ps.map (·.1)) (ps.foldl dueStep ([], e)) := by
  induction ps using append_induction with
  | nil => exact ⟨rfl, rfl, rfl, fun l => by simp⟩
  | append_singleton ps p ih =>
    rw [List.foldl_append, List.map_append]
    exact ih.step p

theorem opLaneReclaim_held {h : Hdr} {tc : Nat} {mask : U64} {budget : Nat} {err : Bool} {e : Engine}
    (hheld : ∀ l < 64, mask.getLsbD l = true → (laneOf e l).st = .granted ∧ (laneOf e l).tc = tc) :
    ∃ n pw f, ∃ ps : List (Nat × Bool × Nat), ps.map (·.1) = maskLanes mask ∧
      let x := ps.foldl dueStep ([], { e with free := f })
      opLaneReclaim h tc mask budget err e = done n { x.2 with lanes := { x.2.lanes with
        reclaims := x.2.lanes.reclaims ++ [{
          h := h, lanes := maskLanes mask, pred := pw, stamp := x.2.time.stamp, istr := x.2.time.num,
            due := x.1 }] } } := by
  have hany : (maskLanes mask).any (fun l => (laneOf e l).st != .granted || (laneOf e l).tc != tc) = false := by
    simp only [List.any_eq_false, mem_maskLanes]
    intro l ⟨hl, hm⟩
    obtain ⟨hst, htc⟩ := hheld l hl hm
    simp [hst, htc]
  unfold opLaneReclaim
  extract_lets ls vin ps worst
  rw [if_neg (by rw [hany]; exact Bool.false_ne_true)]
  obtain ⟨f, hf⟩ := openU32_frame worst e
  refine ⟨worst, (openU32 worst e).1, f, ps, by simp [ps, ls, Function.comp_def], ?_⟩
  rw [← hf]
  rfl

theorem exec_laneGrant {s : State} (hs : Free s) (h : Hdr) (mask : U64) (hopen : isOpen s.eng h.target.toNat = true) :
    exec (.laneGrant h mask) s = replied s h 0x08 (opLaneGrant h.target.toNat mask s.eng) :=
  row_replied hs (.laneGrant h mask) (cmd := .laneGrant mask) (.inr hopen) rfl fun _ => rfl

theorem exec_laneReclaim {s : State} (hs : Free s) (h : Hdr) (mask : U64) (budget : U32)
    (hopen : isOpen s.eng h.target.toNat = true) :
    exec (.laneReclaim h mask budget) s
      = replied s h 0x09 (opLaneReclaim h h.target.toNat mask budget.toNat false s.eng) :=
  row_replied hs (.laneReclaim h mask budget) (cmd := .laneReclaim mask budget) (.inr hopen) rfl fun _ => rfl

theorem opLaneGrant_free {tc : Nat} {mask : U64} {e : Engine} (hopen : (ten e tc).st = .opened)
    (hfree : ∀ l < 64, mask.getLsbD l = true → (laneOf e l).st = .free) :
    opLaneGrant tc mask e = done (lanesOf (grantLanes tc (maskLanes mask) e) tc [.granted]).length
      (grantLanes tc (maskLanes mask) e) := by
  have hclosing : closing e tc = false := by rw [closing, hopen]
  have hany : (maskLanes mask).any (fun l => (laneOf e l).st != .free) = false := by
    simp only [List.any_eq_false, mem_maskLanes]
    intro l ⟨hl, hm⟩
    simp [hfree l hl hm]
  simp only [opLaneGrant, hclosing, hany, Bool.false_eq_true, if_false]
  rfl

/-- Settles O31: by what the folds of the two commands over the lanes of MASK make of each lane. -/
theorem lanesAreGrantedAndReclaimed : Obligations.LanesAreGrantedAndReclaimed := by
  unfold Obligations.LanesAreGrantedAndReclaimed
  refine fun s h mask budget hs => ⟨fun hopen hfree => ?_, fun hopen _ hheld => ?_⟩
  · obtain ⟨⟨n, p, heq, hreclaims⟩, hgranted, hother⟩ := grantLanes_frame h.target.toNat (maskLanes mask) s.eng
    have hexec := exec_laneGrant hs h mask (by rw [isOpen, hopen])
    rw [opLaneGrant_free hopen hfree, replied_done] at hexec
    refine ⟨_, hexec, fun l hl => ?_, by rw [heq]; exact hreclaims, by rw [heq]⟩
    split
    next hm => exact hgranted l (mem_maskLanes.mpr ⟨hl, hm⟩)
    next hm => exact hother l fun hmem => hm (mem_maskLanes.mp hmem).2
  · have hexec := exec_laneReclaim hs h mask budget hopen
    obtain ⟨n, pw, f, ps, hps, hop⟩ := opLaneReclaim_held (h := h) (budget := budget.toNat) (err := false) hheld
    have hx := saving_foldl_dueStep ps { s.eng with free := f }
    rw [hps] at hx
    rw [hop, replied_done] at hexec
    generalize ps.foldl dueStep _ = x at hx hexec
    refine ⟨_, _, _, hexec, fun l hl => ?_, congrArg (· ++ _) hx.reclaims, rfl, rfl, congrArg (·.time.stamp) hx.eng,
      hx.due,
      congrArg (fun e => { e with free := s.eng.free }) hx.rest⟩
    have hlane := hx.lane l
    split
    next hm =>
      rw [if_pos (mem_maskLanes.mpr ⟨hl, hm⟩)] at hlane
      exact ⟨congrArg (·.st) hlane, (congrArg (·.tc) hlane).trans (hheld l hl hm).2⟩
    next hm => exact hlane.trans (if_neg fun hmem => hm (mem_maskLanes.mp hmem).2)

/-! ## RESET_SCOPE (R396-R399) -/

theorem laneOf_opComplete (h : Hdr) (e : Engine) (k : Nat) : laneOf (opComplete h e) k = laneOf e k := by
  obtain ⟨_, _, _, _, heq, -⟩ := opComplete_only h e
  rw [heq]
  rfl

theorem laneOf_reclaimDrop (l : Nat) (e : Engine) (k : Nat) : laneOf (reclaimDrop l e) k = laneOf e k := by
  unfold reclaimDrop
  extract_lets rs ended e1
  refine List.foldlRecOn (motive := fun b => laneOf b k = laneOf e k) ended _ rfl fun b hb r _ => ?_
  obtain ⟨f, hf⟩ := openU32_frame (b.time.stamp - r.stamp).toNat b
  dsimp only
  rw [laneOf_opComplete, hf]
  exact hb

theorem opResetQuadrant_held {h : Hdr} {q : Quad} {e : Engine} (hhold : inHold e = true) (hq : q ≠ 0)
    (hnone : e.lead.resetQ = 0) :
    opResetQuadrant h q.toNat e = done 0 (modLead (fun l => { l with resetRun := l.resetRun ++ [(q,
      h)] }) (quadReset q e)) := by
  have hq0 : (q.toNat == 0) = false := beq_false_of_ne fun h0 => hq (BitVec.eq_of_toNat_eq h0)
  simp only [opResetQuadrant, hhold, hq0, hnone, bne_self_eq_false, Bool.not_true, Bool.or_self, Bool.false_eq_true,
    if_false, BitVec.ofNat_toNat, BitVec.setWidth_eq]

theorem opResetTenant_open {h : Hdr} {tc : U8} {e : Engine} (htc : tc ≠ 0) (hopen : isOpen e tc.toNat = true) :
    opResetTenant h tc.toNat e = done 0 (modFlt (fun f => { f with resets := f.resets ++ [(tc.toNat, h)] })
      (fault .tenantReset tc (.tenant tc) hReset hReset (tc.setWidth 64) e)) := by
  have htc0 : tc.toNat ≠ 0 := fun h0 => htc (BitVec.eq_of_toNat_eq h0)
  have hst : (ten e tc.toNat).st ≠ .free ∧ (ten e tc.toNat).st ≠ .torn := by
    unfold isOpen at hopen
    split at hopen
    next hst => simp [hst]
    next hst => simp [hst]
    · cases hopen
  simp only [opResetTenant, htc0, hst, or_self, if_false, BitVec.ofNat_toNat, BitVec.setWidth_eq]

/-- The engine after a lane of RESET_SCOPE is freed: its fault is reported and contained at once. -/
def laneResetEng (l : Nat) (e : Engine) : Engine :=
  let e := faultAt .laneReset 0 .none hReset hReset (BitVec.ofNat 64 l) e.time.num false e
  let e := modFlt (fun f => { f with due := f.due.erase { cls := .laneReset, tc := 0, obj := .none } }) e
  reclaimDrop l (laneFree l e)

theorem opResetLane_held {h : Hdr} {l : BitVec 6} {e : Engine} (hst : (laneOf e l.toNat).st ≠ .free) :
    opResetLane h l.toNat e = done 0 { laneResetEng l.toNat e with
      pwr := { (laneResetEng l.toNat e).pwr with owed := (laneResetEng l.toNat e).pwr.owed ++ [(5, h)] } } := by
  unfold opResetLane laneResetEng
  simp only [if_neg hst, BitVec.ofNat_toNat, BitVec.setWidth_eq]

theorem laneOf_laneResetEng (l k : Nat) (e : Engine) :
    laneOf (laneResetEng l e) k
      = if k = l then { laneOf e l with st := .free, tc := 0, order := none } else laneOf e k := by
  obtain ⟨_, _, _, _, _, _, _, _, hf⟩ :=
    faultAt_faultOnly .laneReset 0 .none hReset hReset (BitVec.ofNat 64 l) e.time.num false e
  unfold laneResetEng
  rw [laneOf_reclaimDrop, laneFree, hf]
  split
  next hk =>
    rw [hk, laneOf_setLane_self]
    rfl
  next hk =>
    rw [laneOf_setLane_other _ _ _ _ hk]
    rfl

theorem exec_resetScopeQuadrant {s : State} (hs : Free s) (h : Hdr) (i : U8) :
    exec (.resetScopeQuadrant h i) s = replied s h 0x0C (opResetQuadrant h i.toNat s.eng) :=
  row_replied hs (.resetScopeQuadrant h i) (cmd := .resetScope 1 i) (.inl rfl) rfl fun _ => rfl

theorem exec_resetScopeTenant {s : State} (hs : Free s) (h : Hdr) (i : U8) :
    exec (.resetScopeTenant h i) s = replied s h 0x0C (opResetTenant h i.toNat s.eng) :=
  row_replied hs (.resetScopeTenant h i) (cmd := .resetScope 2 i) (.inl rfl) rfl fun _ => rfl

theorem exec_resetScopeLane {s : State} (hs : Free s) (h : Hdr) (i : U8) :
    exec (.resetScopeLane h i) s = replied s h 0x0C (opResetLane h i.toNat s.eng) :=
  row_replied hs (.resetScopeLane h i) (cmd := .resetScope 3 i) (.inl rfl) rfl fun _ => rfl

/-- Settles O33: one equation for each scope, and what the reset of a lane leaves of the lanes. -/
theorem resetScopePacketsReset : Obligations.ResetScopePacketsReset := by
  unfold Obligations.ResetScopePacketsReset
  refine fun s h q tc l hs => ⟨fun hhold hq hnone => ⟨_, rfl, ?_⟩, fun htc hopen => ⟨_, rfl, ?_⟩, fun hst =>
    ⟨laneResetEng l.toNat s.eng, ?_, ?_, ?_, fun k hk => ?_⟩⟩
  · have hexec := exec_resetScopeQuadrant hs h (q.setWidth 8)
    rw [BitVec.toNat_setWidth_of_le (by omega), opResetQuadrant_held hhold hq hnone] at hexec
    exact hexec
  · rw [exec_resetScopeTenant hs, opResetTenant_open htc hopen]
    rfl
  · have hexec := exec_resetScopeLane hs h (l.setWidth 8)
    rw [BitVec.toNat_setWidth_of_le (by omega), opResetLane_held hst] at hexec
    exact hexec
  · rw [laneOf_laneResetEng, if_pos rfl]
  · rw [laneOf_laneResetEng, if_pos rfl]
  · rw [laneOf_laneResetEng, if_neg hk]

end Sys2Proof.Proofs

/-! # Power states (R345-R360) -/

namespace Sys2Proof.Proofs

open Sys2Proof Sys2Proof.Machine Sys2Proof.Certs Sys2Proof.Laws

/-! ## POWER_STATE (R346-R349) -/

/-- No transition is under way. -/
def Settled (e : Engine) : Prop := e.pwr.stopping = [] ∧ e.pwr.entry = [] ∧ e.pwr.waking = []

theorem Settled.unitCode {e : Engine} (h : Settled e) (u : Nat) : unitCode e u = unitState e u := by
  obtain ⟨hs, he, hw⟩ := h
  simp [Machine.unitCode, unitWaking, unitEntering, hs, he, hw]

/-- What lets an entry to SLEEP, and to DEEP or OFF, begin (R348). -/
def MayEnter (e : Engine) (st : Nat) : Prop :=
  (3 ≤ st → regB e rHEAT_CTRL 0 = false ∧ heatBusy e = false)
    ∧ (4 ≤ st → e.rq.slots = [] ∧ e.rq.parked = [] ∧ e.learn.owner = none ∧ ∀ l < 64, (laneOf e l).st = .free)

theorem powerWrong_settled {e : Engine} {st : Nat} {q : Option Quad} (h : Settled e)
    (hq : ∀ x, q = some x → inHold e = true ∧ x ≠ 0) (h0 : q = none → st = 0 → unitState e 4 = 1)
    (h1 : st = 1 → unitState e (unitOf q) ≤ 1) (h2 : 2 ≤ st → unitState e 4 ≤ 1) (hm : MayEnter e st) :
    powerWrong e st q = false := by
  obtain ⟨h3, h4⟩ := hm
  simp only [powerWrong, h.unitCode, Bool.or_eq_false_iff]
  refine ⟨⟨⟨⟨⟨?_, ?_⟩, ?_⟩, ?_⟩, ?_⟩, ?_⟩
  · cases q with
    | none => rfl
    | some x =>
      obtain ⟨hhold, hx⟩ := hq x rfl
      simpa [hhold] using hx
  · cases q with
    | some x => rfl
    | none =>
      by_cases hst : st = 0
      · simp [h0 rfl hst]
      · simp [hst]
  · by_cases hst : st = 1
    · have := h1 hst
      simp [hst]
      omega
    · simp [hst]
  · by_cases hst : 2 ≤ st
    · have := h2 hst
      simp
      omega
    · simp [hst]
  · by_cases hst : 3 ≤ st
    · obtain ⟨hheat, hbusy⟩ := h3 hst
      simp [hheat, hbusy]
    · simp [hst]
  · by_cases hst : 4 ≤ st
    · obtain ⟨hslots, hparked, howner, hfree⟩ := h4 hst
      have hlanes : (List.range 64).any (fun l => (laneOf e l).st != .free) = false := by
        simp only [List.any_eq_false, List.mem_range]
        exact fun l hl => by simp [hfree l hl]
      simp [hslots, hparked, howner, hlanes]
    · simp [hst]

theorem named_eq (scope quad : U8) :
    (if scope.toNat = 1 then some (BitVec.ofNat 2 quad.toNat) else none : Option Quad) = named scope quad
      ∧ scopeUnit scope.toNat quad.toNat = unitOf (named scope quad) := by
  have hscope : scope.toNat = 1 ↔ scope = 1 := ⟨fun h => BitVec.eq_of_toNat_eq h, fun h => h ▸ rfl⟩
  unfold named scopeUnit
  simp only [hscope]
  split
  · exact ⟨rfl, (BitVec.toNat_setWidth 2 quad).symm⟩
  · exact ⟨rfl, rfl⟩

/-- STATE 1: the unit's stop begins. -/
theorem opPowerState_stop {h : Hdr} {scope quad : U8} {e : Engine} 
    (hok : powerWrong e 1 (named scope quad) = false) (hcode : unitCode e (unitOf (named scope quad)) ≠ 1) :
    opPowerState h 1 scope.toNat quad.toNat e = done 0 { e with pwr := { e.pwr with
      stopping := e.pwr.stopping ++ [{ quad := named scope quad, h := some h, wakeSeen := false }] } } := by
  obtain ⟨hq, hu⟩ := named_eq scope quad
  simp only [opPowerState, hq, hu, hok, hcode, Bool.false_eq_true, if_false]
  rfl

/-- STATE 2 to 5: the unit's entry begins. -/
theorem opPowerState_entry {h : Hdr} {scope quad : U8} {st : Nat} {e : Engine} (hst : 2 ≤ st)
    (hok : powerWrong e st (named scope quad) = false) (hcode : unitCode e (unitOf (named scope quad)) ≠ st) :
    opPowerState h st scope.toNat quad.toNat e = done 0 { e with pwr := { e.pwr with
      entry := e.pwr.entry ++ [{ quad := named scope quad, h := some h, target := st,
                                 origin := unitState e (unitOf (named scope quad)), step := 0,
                                   wakeSeen := false }] } } := by
  obtain ⟨hq, hu⟩ := named_eq scope quad
  obtain ⟨n, rfl⟩ : ∃ n, st = n + 2 := ⟨st - 2, by omega⟩
  simp only [opPowerState, hq, hu, hok, hcode, Bool.false_eq_true, if_false]
  rfl

/-- STATE 0 of the engine in STOP, no transition under way: it is in RUN. -/
theorem opPowerState_runEngine {h : Hdr} {scope quad : U8} {e : Engine} (hset : Settled e) (hscope : scope ≠ 1)
    (hquads : e.pwr.quads = []) (hst : e.pwr.eng = 1) :
    opPowerState h 0 scope.toNat quad.toNat e = done 0 { e with pwr := { e.pwr with
      eng := 0, back := tdel e.pwr.back 4, ungated := [], owed := e.pwr.owed ++ [(5, h)] } } := by
  obtain ⟨hq, hu⟩ := named_eq scope quad
  have hnamed : named scope quad = none := if_neg hscope
  have hstate : unitState e 4 = 1 := by simp [unitState, hquads, hst]
  have hok : powerWrong e 0 (named scope quad) = false :=
    powerWrong_settled hset (by simp [hnamed]) (fun _ _ => hstate) (by simp) (by simp) ⟨by simp, by simp⟩
  rw [hnamed] at hq hu hok
  have hcode : unitCode e 4 ≠ 0 := by rw [hset.unitCode, hstate]; decide
  obtain ⟨hs, -, hw⟩ := hset
  simp only [opPowerState, hq, hu, hok, hcode, Bool.false_eq_true, if_false, unitOf, if_true, hs, hw, setUnit,
    modPwr, List.filter_nil, List.filterMap_nil, List.append_nil]
  rw [← hquads, ← hs, ← hw]

section Quadrant

variable {h : Hdr} {scope quad : U8} {e : Engine} (hset : Settled e) (hscope : scope = 1)
  (hok : powerWrong e 0 (named scope quad) = false)
include hset hscope hok

/-- STATE 0 of a quadrant in STOP: it is in RUN. -/
theorem opPowerState_runStopped (hst : unitState e (unitOf (named scope quad)) = 1) :
    opPowerState h 0 scope.toNat quad.toNat e = done 0 { e with pwr := { e.pwr with
      quads := tset e.pwr.quads (unitOf (named scope quad)) 0, back := tdel e.pwr.back (unitOf (named scope quad)),
      ungated := e.pwr.ungated.filter (· != unitOf (named scope quad)), owed := e.pwr.owed ++ [(5, h)] } } := by
  obtain ⟨hq, hu⟩ := named_eq scope quad
  have hcode : unitCode e (unitOf (named scope quad)) ≠ 0 := by rw [hset.unitCode, hst]; decide
  have hnamed : named scope quad = some (quad.setWidth 2) := if_pos hscope
  rw [hnamed] at hq hu hok hcode hst ⊢
  have h4 : unitOf (some (quad.setWidth 2)) ≠ 4 := Nat.ne_of_lt (quad.setWidth 2).isLt
  obtain ⟨-, -, hw⟩ := hset
  simp only [opPowerState, hq, hu, hok, hcode, hst, h4, hw, Bool.false_eq_true, if_false, if_true, setUnit, modPwr,
    List.filter_nil]
  rw [← hw]
  rfl

/-- STATE 0 of a quadrant in IDLE or deeper: it is to come back in RUN. -/
theorem opPowerState_runDeeper (hst : 2 ≤ unitState e (unitOf (named scope quad))) :
    opPowerState h 0 scope.toNat quad.toNat e = done 0 { e with pwr := { e.pwr with
      back := tset e.pwr.back (unitOf (named scope quad)) 0,
      owed := e.pwr.owed ++ [(unitOf (named scope quad), h)] } } := by
  obtain ⟨hq, hu⟩ := named_eq scope quad
  have hcode : unitCode e (unitOf (named scope quad)) ≠ 0 := by rw [hset.unitCode]; omega
  have hone : unitState e (unitOf (named scope quad)) ≠ 1 := by omega
  have hnamed : named scope quad = some (quad.setWidth 2) := if_pos hscope
  rw [hnamed] at hq hu hok hcode hone ⊢
  have h4 : unitOf (some (quad.setWidth 2)) ≠ 4 := Nat.ne_of_lt (quad.setWidth 2).isLt
  obtain ⟨hs, -, -⟩ := hset
  simp only [opPowerState, hq, hu, hok, hcode, hone, h4, hs, Bool.false_eq_true, if_false, List.any_nil, modPwr]

end Quadrant

theorem exec_powerStateRun {s : State} (hs : Free s) (h : Hdr) (scope quad : U8) :
    exec (.powerStateRun h scope quad) s = replied s h 0x0D (opPowerState h 0 scope.toNat quad.toNat s.eng) :=
  row_replied hs (.powerStateRun h scope quad) (cmd := .powerState 0 scope quad) (.inl rfl) rfl fun _ => rfl

theorem exec_powerStateStop {s : State} (hs : Free s) (h : Hdr) (scope quad : U8) :
    exec (.powerStateStop h scope quad) s = replied s h 0x0D (opPowerState h 1 scope.toNat quad.toNat s.eng) :=
  row_replied hs (.powerStateStop h scope quad) (cmd := .powerState 1 scope quad) (.inl rfl) rfl fun _ => rfl

theorem exec_powerStateEntry {s : State} (hs : Free s) (h : Hdr) (st scope quad : U8) :
    exec (.powerStateEntry h st scope quad) s
      = replied s h 0x0D (opPowerState h st.toNat scope.toNat quad.toNat s.eng) :=
  row_replied hs (.powerStateEntry h st scope quad) (cmd := .powerState st scope quad) (.inl rfl) rfl fun _ => rfl

/-- Settles O11: none of the conditions of R348 holds, and each STATE has its own equation. -/
theorem powerStatePacketsStartTransitions : Obligations.PowerStatePacketsStartTransitions := by
  unfold Obligations.PowerStatePacketsStartTransitions
  intro s h st scope quad hs hstop hentry hwake _ hquad u p
  have hset : Settled s.eng := ⟨hstop, hentry, hwake⟩
  have hnamed : ∀ x, named scope quad = some x → inHold s.eng = true ∧ x ≠ 0 := by
    intro x hx
    rw [named, Option.ite_none_right_eq_some] at hx
    obtain ⟨hscope, hx⟩ := hx
    obtain ⟨hhold, hlo, hhi⟩ := hquad hscope
    refine ⟨hhold, fun h0 => ?_⟩
    have hmod : quad.toNat % 2 ^ 2 = 0 := by
      rw [← BitVec.toNat_setWidth, Option.some.inj hx, h0]
      rfl
    omega
  refine ⟨fun h0 => ?_, fun hscope hquads h1 => ?_, fun hscope h1 => ?_, fun hscope h2 => ?_,
    fun hlo hhi h4 hne _ h3 hempty => ?_⟩
  · have hrun : unitState s.eng (unitOf (named scope quad)) = 0 := h0
    have hok := powerWrong_settled (st := 1) hset hnamed (by simp) (fun _ => by omega) (by simp) ⟨by simp, by simp⟩
    rw [exec_powerStateStop hs, opPowerState_stop hok (by rw [hset.unitCode]; omega), hstop, replied_done]
    rfl
  · rw [exec_powerStateRun hs, opPowerState_runEngine hset (by simp [hscope]) hquads h1, replied_done]
  · have hok := powerWrong_settled (st := 0) hset hnamed (by simp [named, hscope]) (by simp) (by simp) ⟨by simp,
      by simp⟩
    rw [exec_powerStateRun hs, opPowerState_runStopped hset hscope hok h1, replied_done]
  · have hok := powerWrong_settled (st := 0) hset hnamed (by simp [named, hscope]) (by simp) (by simp) ⟨by simp,
      by simp⟩
    rw [exec_powerStateRun hs, opPowerState_runDeeper hset hscope hok h2, replied_done]
  · have hok := powerWrong_settled hset hnamed (fun _ h0 => by omega) (fun h1 => by omega) (fun _ => h4) ⟨h3, hempty⟩
    rw [exec_powerStateEntry hs, opPowerState_entry hlo hok (by rw [hset.unitCode]; exact hne), hentry, replied_done]
    rfl

/-! ## STOP and the steps of an entry (R347, R352-R356) -/

/-- The engine's stop is done once no heat with rows is left: it is in STOP, and an asked-for RUN starts its wake. -/
theorem opStopGating_engine {e : Engine} {x : Stopping} {xs : List Stopping} (hx : e.pwr.stopping = x :: xs)
    (hquad : x.quad = none) (hwake : x.wakeSeen = false) (hheat : heatBusy e = false ∨ curEmpty e = true) :
    opStopGating e =
      let e1 := if heatBusy e then e else heatFinish e
      let e2 := finishH x.h { e1 with pwr := { e1.pwr with
        stopping := xs, back := tset e1.pwr.back 4 0, ungated := e1.pwr.ungated.filter (· != 4), eng := 1,
          quads := [] } }
      if runAsked 4 e2 then runWake 4 e2 else e2 := by
  have hgo : (heatBusy e && !curEmpty e) = false := by
    rcases hheat with h | h <;> simp [h]
  simp only [opStopGating, hx, hgo, hquad, hwake, unitOf, setUnit, modPwr, Bool.false_eq_true, if_false]

section Entry

variable {e : Engine} {x : Entry} {xs : List Entry} (hx : e.pwr.entry = x :: xs) (hquad : x.quad = none) (hstep :
    x.step = 0)
include hx hquad hstep

theorem opEntryStep_inner (hwake : x.wakeSeen = false) (htarget : 3 ≤ x.target) :
    opEntryStep e = { e with pwr := { e.pwr with entry := { x with step := 1 } :: xs } } := by
  have hmore : ¬ 1 = entrySteps x.target := by
    unfold entrySteps
    split
    · omega
    · split <;> omega
  simp [opEntryStep, hx, hstep, hwake, hmore, entryEffect, hquad, unitOf, modPwr]

theorem opEntryStep_abort (hwake : x.wakeSeen = true) :
    opEntryStep e = finishH x.h (setLast x.target 2 1 (bumpSat rPWR_ENTRY 31 16 1
      { e with pwr := { e.pwr with entry := xs } })) := by
  simp [opEntryStep, hx, hstep, hwake, entryEffect, entryAbort, hquad, unitOf, modPwr]

theorem opEntryStep_idle (hwake : x.wakeSeen = false) (htarget : x.target = 2) :
    opEntryStep e =
      let e1 := setLast 2 0 0 (bumpSat rPWR_ENTRY 63 48 1 { e with pwr := { e.pwr with entry := xs } })
      { e1 with pwr := { e1.pwr with
        back := tset e1.pwr.back 4 x.origin,
        owed := match x.h with
          | some h => e1.pwr.owed ++ [(4, h)]
          | none => e1.pwr.owed,
        eng := 2, quads := [] } } := by
  simp only [opEntryStep, hx, hstep, hwake, htarget, entryEffect, entered, entrySteps, hquad, unitOf, modPwr, setUnit]
  rfl

omit hquad in
theorem opQuiesceTimeout_tile {tile : TileAt} (htile : tileActive tile = true) :
    opQuiesceTimeout [tile] e = finishH x.h (setReg rPWR_REFUSER (hOf tile) (setLast x.target 1 0
      (bumpSat rPWR_ENTRY 47 32 1 { e with pwr := { e.pwr with entry := xs } }))) := by
  simp [opQuiesceTimeout, htile, hx, hstep, modPwr]

end Entry

/-- Settles O12: one equation for the end of a stop, and one for each way the first step of an entry can end. -/
theorem stopAndEntryStepsRun : Obligations.StopAndEntryStepsRun := by
  unfold Obligations.StopAndEntryStepsRun
  refine ⟨fun s x xs hin hx hquad hwake hheat => ⟨_, _, rfl, rfl, ?_⟩, fun s x xs tile hin hx hquad hstep => ?_⟩
  · have hexec : exec .stopGating s = onEng opStopGating s := rfl
    rw [hexec, onEng_up hin, opStopGating_engine hx hquad hwake hheat]
    rfl
  · have hexec : exec .entryStepComplete s = goes s (cpRelease (opEntryStep s.eng)) := onEng_up hin
    have hquiesce : exec (.quiesceTimeout [tile]) s = goes s (cpRelease (opQuiesceTimeout [tile] s.eng)) := onEng_up hin
    refine ⟨fun hwake htarget => ?_, fun hwake => ?_, fun hwake htarget => ⟨_, rfl, ?_⟩, fun htile => ?_⟩
    · rw [hexec, opEntryStep_inner hx hquad hstep hwake htarget]
    · rw [hexec, opEntryStep_abort hx hquad hstep hwake]
    · rw [hexec, opEntryStep_idle hx hquad hstep hwake htarget] <;> rfl
    · rw [hquiesce, opQuiesceTimeout_tile hx hstep htile]

/-! ## Wakes (R357-R358) -/

/-- The resting engine with the wake from its state begun. -/
def waking (st : Nat) (e : Engine) : Engine :=
  { e with pwr := { e.pwr with waking := [{ quad := none, origin := st, stages := wakeStages st }] } }

theorem startWake_resting {e : Engine} {st : Nat} (h : Resting e st) : startWake none e = waking st e := by
  obtain ⟨hst, hquads, -, -, hwake⟩ := h
  have hstate : unitState e 4 = st := by simp [unitState, hquads, hst]
  simp only [startWake, unitOf, unitWaking, hwake, List.any_nil, Bool.false_eq_true, if_false, hstate, modPwr,
    List.nil_append]
  rfl

/-- A source that wakes from the state of a resting engine starts its wake. -/
theorem wakeEvent_resting {e : Engine} {st : Nat} (h : Resting e st) {src : Nat}
    (hsrc : wakesFrom src st e.pwr.coreOk = true) : wakeEvent src e = waking st e := by
  have hstart := startWake_resting h
  obtain ⟨hst, hquads, hstop, hentry, -⟩ := h
  have hstate : unitState e 4 = st := by simp [unitState, hquads, hst]
  have hunits : wakeUnits e = [none] := by simp [wakeUnits, hquads, tkeys]
  have hnoted (f : Stopping → Stopping) (g : Entry → Entry) :
      modPwr (fun p => { p with stopping := p.stopping.map f, entry := p.entry.map g }) e = e := by
    simp only [modPwr, hstop, hentry, List.map_nil]
    rw [← hstop, ← hentry]
  simp only [wakeEvent, hnoted, hunits, List.foldl_cons, List.foldl_nil, unitOf, unitEntering, hstop, hentry,
    List.any_nil,
    hstate, hsrc, Bool.not_true, Bool.or_self, Bool.false_eq_true, if_false, hstart]

theorem portOpen_of_resting {s : State} {st : Nat} (h : Resting s.eng st) (hr : inReset s.eng = false) (hst : st < 3) :
    PortOpen s := by
  obtain ⟨rfl, -, -, hentry, -⟩ := h
  exact ⟨hr, hst, by simp [hentry]⟩

theorem infoAt_pwrWake : infoAt rPWR_WAKE
    = some { off := 0xD48, wide := false, rw := 0, rwp := 0, w1c := 0, rc := 0, wo := 0x1, reset := 0x0 } := rfl

theorem cpDo_wake (e : Engine) : cpDo (wr32 rPWR_WAKE 1 true) e = answer 0 false (wakeEvent 0 e) := by
  rw [cpDo_wr32_priv 1 e (by decide) rfl infoAt_pwrWake rfl, writeWhole_priv _ e (by decide) infoAt_pwrWake (by decide)]
  rfl

theorem opWakeStage_next {e : Engine} {x : Waking} {ws : List Waking} {st : Nat} {rest : List Nat}
    (hx : e.pwr.waking = x :: ws) (hstages : x.stages = st :: rest) (hwarn : st = 3 → e.pwr.vwarnNow = false)
    (hrest : rest ≠ []) :
    opWakeStage e = { e with pwr := { e.pwr with waking := { x with stages := rest } :: ws } } := by
  have hgo : ¬ (st = 3 ∧ e.pwr.vwarnNow = true) := fun ⟨h3, hv⟩ => by simp [hwarn h3] at hv
  have hmore : rest.isEmpty = false := by simpa using hrest
  simp only [opWakeStage, hx, hstages, hgo, hmore, modPwr, Bool.false_eq_true, if_false]

theorem opWakeStage_last {e : Engine} {x : Waking} {ws : List Waking} {st : Nat}
    (hx : e.pwr.waking = x :: ws) (hstages : x.stages = [st]) (hwarn : st = 3 → e.pwr.vwarnNow = false)
    (hquad : x.quad = none) (horigin : x.origin = 2) (hret : e.pwr.retlostSticky = false) :
    opWakeStage e = payOwed 4 { e with pwr := { e.pwr with
      waking := ws, back := tdel e.pwr.back 4, quads := [], eng := (tget? e.pwr.back 4).getD 2 } } := by
  have hgo : ¬ (st = 3 ∧ e.pwr.vwarnNow = true) := fun ⟨h3, hv⟩ => by simp [hwarn h3] at hv
  simp only [opWakeStage, hx, hstages, hgo, List.isEmpty_nil, if_true, if_false, wakeDone, hquad, horigin, unitOf,
    modPwr, setUnit,
    retCheck, hret, Bool.not_false]
  rfl

/-- An access in SLEEP starts the wake and waits for it, while fewer than 16 wait. -/
theorem opCp_asleep {e : Engine} (h : Resting e 3) (hr : inReset e = false) (a : CpAccess) :
    opCp a e = { waking 3 e with pwr := { (waking 3 e).pwr with
      held := if e.pwr.held.length < 16 then e.pwr.held ++ [a] else e.pwr.held } } := by
  have hwake : wakeEvent 1 e = waking 3 e := wakeEvent_resting h rfl
  obtain ⟨hst, -⟩ := h
  have hwaits : cpWaits (waking 3 e) = true := by simp [cpWaits, waking, hst]
  have hroom : cpRoom (waking 3 e) = decide (e.pwr.held.length < 16) := rfl
  simp only [opCp, hr, cpWake, hst, true_or, if_true, hwake, hwaits, hroom, Bool.not_true, Bool.false_eq_true, if_false,
    decide_eq_true_eq]
  split <;> rfl

theorem exec_wakeStageReady {s : State} (hr : inReset s.eng = false) :
    exec .wakeStageReady s = goes s (cpRelease (opWakeStage s.eng)) := by
  have hexec : exec .wakeStageReady s
      = goes s (if inReset s.eng then s.eng else cpRelease (opWakeStage s.eng)) := rfl
  rw [hexec, if_neg (by simp [hr])]

/-- Settles O10: a source that wakes from the state starts the one wake there is, and its stages go one by one. -/
theorem wakesStartAndRunTheirStages : Obligations.WakesStartAndRunTheirStages := by
  unfold Obligations.WakesStartAndRunTheirStages
  refine ⟨fun s ns st hr hrest => ⟨fun hns hlo hhi => ?_, fun hns => ?_, fun hst => ?_, fun a hst => ?_⟩,
    fun s x ws st rest hr hx hstages hwarn => ⟨fun hrest => ?_, fun hrest hquad horigin hret => ?_⟩⟩
  · have hexec : exec (.wakeIn ns) s = goes s (if 100 ≤ ns ∧ !inReset s.eng then wakeEvent 2 s.eng else s.eng) := rfl
    rw [hexec, if_pos ⟨hns, by simp [hr]⟩, wakeEvent_resting hrest (by simp [wakesFrom, hlo, hhi])]
    rfl
  · have hexec : exec (.wakeIn ns) s = goes s (if 100 ≤ ns ∧ !inReset s.eng then wakeEvent 2 s.eng else s.eng) := rfl
    rw [hexec, if_neg (by omega)]
    rfl
  · have hopen := portOpen_of_resting hrest hr (by omega)
    have hexec : exec (.wake 1) s = goes s (opCp (wr32 rPWR_WAKE 1 true) s.eng) := rfl
    rw [hexec, opCp_portOpen hopen, cpDo_wake, wakeEvent_resting hrest (by rcases hst with rfl | rfl <;> rfl)]
    rfl
  · subst hst
    have hexec : exec (.sleepCpAccessWake a) s = goes s (opCp a s.eng) := rfl
    rw [hexec, opCp_asleep hrest hr a]
    rfl
  · rw [exec_wakeStageReady hr, opWakeStage_next hx hstages hwarn hrest]
  · subst hrest
    rw [exec_wakeStageReady hr, opWakeStage_last hx hstages hwarn hquad horigin hret]

/-! ## Steep images (R360) -/

theorem memRdIssue_frame (port a n : Nat) (who : MemWho) (e : Engine) :
    ∃ p, memRdIssue port a n who e = { e with port := p } := by
  refine List.foldlRecOn (motive := fun b => ∃ p, b = { e with port := p }) (List.range (lineCount a n)) _ ⟨e.port, rfl⟩
    fun b ⟨p, hb⟩ k _ => ?_
  obtain ⟨p', h⟩ := memIssue_frame ⟨BitVec.ofNat 2 port, false, (a / 64 + k) * 64, who⟩ b
  exact ⟨p', by rw [h, hb]⟩

/-- What the start of a load of `len` units makes of the power state. -/
def steepPwr (len : Nat) (p : PwrSt) : PwrSt :=
  { p with
    steep := if 1 ≤ len ∧ len ≤ 32 then 1 else 3, steepLen := len, steepMatch := false, steepErr := false,
    steepReads := if 1 ≤ len ∧ len ≤ 32 then 64 * len else 0 }

theorem steepStart_frame (len : Nat) (e : Engine) :
    ∃ p, steepStart len false e = { e with port := p, pwr := steepPwr len e.pwr } := by
  have hreads : (if 1 ≤ len ∧ len ≤ 32 then 4096 * len else 0) / 64 = if 1 ≤ len ∧ len ≤ 32 then 64 * len else 0 := by
    split <;> omega
  unfold steepStart
  simp only [decide_eq_true_eq, hreads]
  obtain ⟨p, h⟩ := memRdIssue_frame 0 _ _ .steep _
  rw [h]
  exact ⟨p, rfl⟩

theorem infoAt_steepCtrl : infoAt rPWR_STEEP_CTRL
    = some { off := 0xD40, wide := false, rw := 0, rwp := 0x3F,
             w1c := 0, rc := 0, wo := 0x80000000, reset := 0x0 } := rfl

/-- The value PWR_STEEP_CTRL keeps of a write: its LEN4K. -/
def steepCtrl (old : U64) (val : U32) : U64 := (old &&& ~~~0x3F#64) ||| (val.setWidth 64 &&& 0x3F#64)

theorem cpDo_steepLoad (val : U32) (hload : val.getLsbD 31 = true) (e : Engine) :
    cpDo (wr32 rPWR_STEEP_CTRL val true) e
      = answer 0 false (steepLoad (setReg rPWR_STEEP_CTRL (steepCtrl (reg e rPWR_STEEP_CTRL) val) e)) := by
  have hbit : bit (val.setWidth 64) 31 = true := by
    rw [bit, BitVec.getLsbD_setWidth, hload]
    rfl
  rw [cpDo_wr32_priv val e (by decide) rfl infoAt_steepCtrl rfl, writeWhole_priv _ e (by decide) infoAt_steepCtrl (by
    decide),
    stored_priv _ _ rfl]
  exact congrArg (answer 0 false) (if_pos hbit)

theorem steepCtrl_len (old : U64) (val : U32) : bits (steepCtrl old val) 5 0 = val.toNat % 64 := by
  have hkept : bits (~~~0x3F#64) 5 0 = 0 := rfl
  have hfield : bits 0x3F#64 5 0 = 2 ^ 6 - 1 := rfl
  have hval : bits (val.setWidth 64) 5 0 = val.toNat % 2 ^ 6 := by
    rw [bits, BitVec.toNat_setWidth_of_le (by decide), Nat.shiftRight_zero]
  rw [steepCtrl, bits_or, bits_and, bits_and, hkept, hfield, hval, Nat.and_zero, Nat.zero_or,
    Nat.and_two_pow_sub_one_eq_mod]
  exact Nat.mod_mod _ _

theorem steepLoad_idle {e : Engine} (h : Resting e 2) :
    steepLoad e = steepStart (regN e rPWR_STEEP_CTRL 5 0) false e := by
  obtain ⟨hst, hquads, hstop, hentry, hwake⟩ := h
  have hcode : unitCode e 4 = 2 := by
    simp [unitCode, unitWaking, unitEntering, unitState, hst, hquads, hstop, hentry, hwake]
  rw [steepLoad, if_pos hcode]

/-- The image of a load that has read its lines is judged. -/
theorem opSteepVerify_read {e : Engine} (hsteep : e.pwr.steep = 1) (hreads : e.pwr.steepReads = 0)
    (hmatch : e.pwr.steepMatch = false) :
    opSteepVerify e =
      let img := rd e ((reg e rPWR_STEEP_BASE).toNat / 4096 * 4096) (4096 * e.pwr.steepLen)
      if e.pwr.steepErr = false ∧ Config.steepVerifies img = true then
        { e with pwr := { e.pwr with steep := 2, digest := Config.steepDigest img, eng := 0, quads := [] } }
      else { e with pwr := { e.pwr with steep := 3 } } := by
  have hgo : ¬ (e.pwr.steep ≠ 1 ∨ e.pwr.steepReads ≠ 0) := by simp [hsteep, hreads]
  unfold opSteepVerify
  rw [if_neg hgo]
  extract_lets a n img d ok
  have hok : ok = true ↔ e.pwr.steepErr = false ∧ Config.steepVerifies img = true := by simp [ok, hmatch]
  simp only [hok, modPwr, setUnit]
  split
  · rw [← hmatch]
  · rw [← hmatch]

/-- Settles O13: the write starts the load of the LEN4K it stores, and the image is judged once it is read. -/
theorem steepImageLoadsAndVerifies : Obligations.SteepImageLoadsAndVerifies := by
  unfold Obligations.SteepImageLoadsAndVerifies
  refine fun s val hs => ⟨fun hrest hload => ?_, fun hin hreads => ?_, fun hin hsteep hreads hmatch => ?_⟩
  · have hexec : exec (.steepLoad val) s = goes s (opCp (wr32 rPWR_STEEP_CTRL val true) s.eng) := rfl
    have hstored : Resting (setReg rPWR_STEEP_CTRL (steepCtrl (reg s.eng rPWR_STEEP_CTRL) val) s.eng) 2 := hrest
    rw [opCp_portOpen hs, cpDo_steepLoad val hload, steepLoad_idle hstored, regN, reg_setReg_self,
      steepCtrl_len] at hexec
    obtain ⟨p, hp⟩ := steepStart_frame (val.toNat % 64)
      (setReg rPWR_STEEP_CTRL (steepCtrl (reg s.eng rPWR_STEEP_CTRL) val) s.eng)
    rw [hp] at hexec
    refine ⟨_, hexec, rfl, rfl, ?_, fun q hq => reg_setReg_other _ _ _ _ hq, rfl⟩
    exact (congrArg (bits · 5 0) (reg_setReg_self _ _ _)).trans (steepCtrl_len _ _)
  · have hexec : exec .steepVerifyComplete s = onEng opSteepVerify s := rfl
    rw [hexec, onEng_up hin, opSteepVerify, if_pos (.inr hreads)]
  · intro a n
    have hexec : exec .steepVerifyComplete s = onEng opSteepVerify s := rfl
    rw [hexec, onEng_up hin, opSteepVerify_read hsteep hreads hmatch]
    dsimp only
    split <;> rfl

end Sys2Proof.Proofs

/-! # Captures (R379-R382) -/

namespace Sys2Proof.Proofs

open Sys2Proof Sys2Proof.Machine Sys2Proof.Certs Sys2Proof.Laws

/-- With no completion owed and no reclaim under way, a reply is followed by a capture that acts in HOLD, if any. -/
theorem settled_capNow {e : Engine} (howed : e.pwr.owed = []) (hreclaims : e.lanes.reclaims = []) :
    settled e = capNow e := by
  have hpay : payNow e = e := by
    simp only [payNow, payOwed, howed, List.filter_nil, List.foldl_nil, modPwr]
    rw [← howed]
  have hsweep : reclaimSweep e = e := by
    simp only [reclaimSweep, reclaimOrders, reclaimDrop, hreclaims, List.filter_nil, List.map_nil, List.foldl_nil]
    rw [← hreclaims]
  rw [settled, hpay, hsweep]

theorem quadUp_all {e : Engine} (hup : ∀ q < 4, unitState e q < 2) : (List.range 4).all (quadUp e) = true := by
  simp only [List.all_eq_true, List.mem_range, quadUp, decide_eq_true_eq]
  exact hup

theorem exec_capture {s : State} (hs : Free s) (h : Hdr) (addr : U64) (hnone : s.eng.cap.asked = none)
    (hup : ∀ q < 4, unitState s.eng q < 2) (howed : s.eng.pwr.owed = []) (hreclaims : s.eng.lanes.reclaims = []) :
    exec (.capture h addr) s = goes s (capNow { s.eng with
      cap := { s.eng.cap with asked := some (h, addr, 0), atOnce := inHold s.eng } }) := by
  obtain ⟨hin, hfree⟩ := hs
  obtain ⟨hbusy, -⟩ := Bool.or_eq_false_iff.mp hfree
  have hop : opCapture h addr 0 s.eng = done s.eng.time.num.toNat { s.eng with
      cap := { s.eng.cap with asked := some (h, addr, 0), atOnce := inHold s.eng } } := by
    rw [opCapture, hbusy, hnone, quadUp_all hup]
    rfl
  have hexec : exec (.capture h addr) s = row (.capture h addr) h (.capture addr) s := rfl
  rw [hexec, row_free hin hfree]
  have hnow : applyNow h (.capture addr) s.eng = settled (opCapture h addr 0 s.eng).eng := by
    have hc : checkedEffect [h.ring.toNat, h.ridx.toNat] h (.capture addr) false false s.eng = opCapture h addr 0
      s.eng := rfl
    rw [applyNow, hc, hop]
    rfl
  rw [hnow, hop]
  exact congrArg (goes s) (settled_capNow howed hreclaims)

theorem exec_gated {s : State} {c : Instr} {f : Engine → Engine} (hc : exec c s = onEng (capGate c f) s)
    (hin : inService s.eng = true) (hbusy : s.eng.cap.busy = true) :
    exec c s = goes s { s.eng with cap := { s.eng.cap with held := s.eng.cap.held ++ [c] } } := by
  rw [hc, onEng_up hin, capGate_frozen (by rw [frozen, hbusy, Bool.true_or])]
  rfl

theorem opFreezeMarker_new {q : Quad} {up : Bool} {e : Engine} (hbusy : e.cap.busy = true) (hnew : (q,
    up) ∉ e.cap.markers) :
    opFreezeMarker q up e = { e with cap := { e.cap with
      markers := e.cap.markers ++ [(q, up)],
      cutStamp := if e.cap.markers.length + 1 = 8 then e.time.stamp else e.cap.cutStamp } } := by
  have hcont : e.cap.markers.contains (q, up) = false := by simpa using hnew
  simp only [opFreezeMarker, hbusy, hcont, Bool.not_true, Bool.or_self, Bool.false_eq_true, if_false,
    List.length_append, List.length_singleton]
  split <;> rfl

theorem goOn_nothing {e : Engine} (hagenda : e.sched.agenda = []) : goOn [] e = e := by
  simp [goOn, runDuties, hagenda]

/-- A completion, if one is owed, leaves everything but memory, registers, tenants and ports unchanged. -/
theorem finishH_only (h : Option Hdr) (e : Engine) : RingOnly e (finishH h e) := by
  cases h with
  | none => exact .refl e
  | some h => exact opComplete_only { h with target := 0 } e

/-- The engine with the bytes of an image written at `a` and the capture ended, `n` free values taken. -/
def imageWritten (a n : Nat) (bs : List Byte) (e : Engine) : Engine :=
  let e' := wr a bs e
  { e' with
    free := e'.free + n, cap := { e'.cap with busy := false, valid := true, markers := [], held := [], h := none } }

theorem capWrite_eq (e : Engine) : ∃ a n bs, capWrite e = finishH e.cap.h (imageWritten a n bs e) := by
  unfold capWrite finishH imageWritten
  exact ⟨_, _, _, rfl⟩

theorem finishH_imageWritten_frame (h : Option Hdr) (a n : Nat) (bs : List Byte) (e : Engine) :
    (finishH h (imageWritten a n bs e)).sched = e.sched ∧ (finishH h (imageWritten a n bs e)).cap
      = { e.cap with busy := false, valid := true, markers := [], held := [], h := none } := by
  obtain ⟨_, _, _, _, heq, -⟩ := finishH_only h (imageWritten a n bs e)
  rw [heq]
  exact ⟨rfl, rfl⟩

theorem capWrite_frame (e : Engine) :
    (capWrite e).sched = e.sched
      ∧ (capWrite e).cap = { e.cap with busy := false, valid := true, markers := [], held := [], h := none } := by
  obtain ⟨a, n, bs, h⟩ := capWrite_eq e
  rw [h]
  exact finishH_imageWritten_frame e.cap.h a n bs e

section Frozen

variable {s : State} (hin : inService s.eng = true) (hbusy : s.eng.cap.busy = true)
include hin hbusy

theorem exec_captureRelease_early (hm : s.eng.cap.markers.length ≠ 8) : exec .captureRelease s = .next s := by
  have hexec : exec .captureRelease s = onEng opRelease s := rfl
  have hop : opRelease s.eng = s.eng := by
    simp [opRelease, frozen, hbusy, hm]
  rw [hexec, onEng_up hin, hop]

theorem exec_captureRelease_whole (hm : s.eng.cap.markers.length = 8) (hheld : s.eng.cap.held = [])
    (hagenda : s.eng.sched.agenda = []) : exec .captureRelease s = goes s (capWrite s.eng) := by
  obtain ⟨hsched, -⟩ := capWrite_frame s.eng
  have hexec : exec .captureRelease s = onEng opRelease s := rfl
  have hop : opRelease s.eng = capWrite s.eng := by
    simp only [opRelease, frozen, hbusy, hm, hheld, Bool.true_or, Bool.not_true, Bool.false_eq_true, if_false,
      bne_self_eq_false]
    exact goOn_nothing (by rw [hsched, hagenda])
  rw [hexec, onEng_up hin, hop]
  rfl

end Frozen

/-- Settles O22: by the gate of a frozen engine, and one equation for each step of a capture. -/
theorem capturesHoldAndFinish : Obligations.CapturesHoldAndFinish := by
  unfold Obligations.CapturesHoldAndFinish
  refine ⟨fun s h addr hs hnone hup howed hreclaims => ⟨fun hhold => ?_, fun hhold => ⟨_, rfl, ?_⟩⟩,
    fun s h n k q hin hbusy c hc => ?_,
    fun s q up hin hbusy => ⟨fun hnew => ?_, fun hold => ?_, exec_captureRelease_early hin hbusy,
      fun hm hheld hagenda => ⟨_, rfl, ?_, ?_⟩⟩⟩
  · rw [exec_capture hs h addr hnone hup howed hreclaims, hhold]
    rfl
  · rw [exec_capture hs h addr hnone hup howed hreclaims, hhold]
    rfl
  · simp only [List.mem_cons, List.not_mem_nil, or_false] at hc
    rcases hc with rfl | rfl | rfl | rfl | rfl | rfl <;> exact exec_gated rfl hin hbusy
  · have hexec : exec (.freezeMarker q up) s = onEng (opFreezeMarker q up) s := rfl
    rw [hexec, onEng_up hin, opFreezeMarker_new hbusy hnew]
    rfl
  · have hexec : exec (.freezeMarker q up) s = onEng (opFreezeMarker q up) s := rfl
    have hcont : s.eng.cap.markers.contains (q, up) = true := by simpa using hold
    have hop : opFreezeMarker q up s.eng = s.eng := by
      simp only [opFreezeMarker, hcont, Bool.or_true, if_true]
    rw [hexec, onEng_up hin, hop]
  · exact exec_captureRelease_whole hin hbusy hm hheld hagenda
  · obtain ⟨-, hcap⟩ := capWrite_frame s.eng
    rw [hcap]
    exact ⟨rfl, rfl, rfl, rfl⟩

end Sys2Proof.Proofs

/-! # Register writes that store (18_register_map.md; R286, R401, R404) -/

namespace Sys2Proof.Proofs

open Sys2Proof Sys2Proof.Machine Sys2Proof.Certs Sys2Proof.Laws

/-- A write of a register of the window that does no more than store. -/
theorem writePriv_stores {o : Nat} (v new : U64) (e : Engine) (hacts : o ∉ actsOnWrite)
    (hvec : ¬ (0x200 ≤ o ∧ o < 0x400 ∧ o % 16 = 12)) : writePriv o v new e = setReg o new e := by
  simp only [actsOnWrite, List.mem_cons, List.not_mem_nil, or_false, not_or] at hacts
  obtain ⟨h1, h2, h3, h4, h5, h6, h7, h8, h9, h10, h11, h12, h13, h14, h15⟩ := hacts
  simp only [writePriv, hvec, h1, h2, h3, h4, h5, h6, h7, h8, h9, h10, h11, h12, h13, h14, h15, if_false]

/-- A write of a tenant page that does no more than store. -/
theorem writePage_stores {tc p : Nat} (new : U64) (e : Engine) (hacts : p ∉ [0x8, 0x1C, 0x20, 0x1C0])
    (hvec : ¬ (0x100 ≤ p ∧ p < 0x180 ∧ p % 16 = 12)) : writePage tc p new e = setReg (page tc p) new e := by
  simp only [List.mem_cons, List.not_mem_nil, or_false, not_or] at hacts
  obtain ⟨h1, h2, h3, h4⟩ := hacts
  simp only [writePage, hvec, h1, h2, h3, h4, if_false]

/-- The guard judges no half that waits for its high one. -/
theorem guardPriv_wrLatch (o : Nat) (old new : U64) (e : Engine) (l : Table U32) :
    guardPriv o old new { e with wrLatch := l } = guardPriv o old new e := rfl

theorem writeWhole_page {o : Nat} {r : RegInfo} (v : U64) (priv : Bool) (e : Engine) (ho : 0x1000 ≤ o) (hr : infoAt o
    = some r) :
    writeWhole r v priv e = if writable r priv = 0 then e
      else if priv && guardPage ((o - 0x100000) / 0x1000) (o % 0x1000) (reg e o) (stored r priv (reg e o) v) e
      then guardErr o e
      else writePage ((o - 0x100000) / 0x1000) (o % 0x1000) (stored r priv (reg e o) v) e := by
  obtain rfl := infoAt_off hr
  have hpage : ¬ r.off < 0x1000 := by omega
  simp only [writeWhole, hpage, if_false]
  rfl

theorem page_of_infoAt {o : Nat} (ho : 0x100000 ≤ o) : page ((o - 0x100000) / 0x1000) (o % 0x1000) = o := by
  simp only [page]
  omega

/-- Settles O14: a whole register is written under its guard, and no act of these registers goes beyond the store. -/
theorem registerWriteStoresWritableFields : Obligations.RegisterWriteStoresWritableFields := by
  unfold Obligations.RegisterWriteStoresWritableFields
  intro s off r val priv hs hr o new ignored
  refine ⟨fun ho hpriv hw hacts hvec => ⟨fun ha hnarrow => ?_, fun ha hwide => ?_⟩, fun ho ha hnarrow hacts hvec => ?_⟩
  · subst hpriv
    rw [exec_registerWrite hs, cpDo_write32 _ _ _ _ ha (.inl rfl), write32_narrow _ _ _ hr hnarrow,
      writeWhole_priv _ _ ho hr hw, writePriv_stores _ _ _ hacts hvec]
    split <;> rfl
  · subst hpriv
    rw [exec_registerWrite hs, cpDo_write64 _ _ _ _ ha (.inl rfl), write64_wide _ _ _ hr hwide,
      writeWhole_priv _ _ ho hr hw, writePriv_stores _ _ _ hacts hvec, guardPriv_wrLatch]
    change goes s (answer 0 false (if guardPriv o (reg s.eng o) (new val) s.eng then _ else _)) = _
    split <;> rfl
  · rw [exec_registerWrite hs, cpDo_write32 _ _ _ _ ha (.inr (by omega)), write32_narrow _ _ _ hr hnarrow,
      writeWhole_page _ _ _ (by omega) hr, writePage_stores _ _ hacts (by omega), page_of_infoAt ho]
    split
    · rfl
    · split <;> rfl

end Sys2Proof.Proofs

/-! # Counter latches (R365-R367) -/

namespace Sys2Proof.Proofs

open Sys2Proof Sys2Proof.Machine Sys2Proof.Certs Sys2Proof.Laws

/-! ## Counters of a group (R365) -/

/-- Where counter `i` of a group is kept: of group 0x0100 tenant `tc`'s. -/
def groupKey (g tc i : Nat) : Nat := if g = 0x100 then tcntKey tc i else cntKey g i

theorem groupKey_inj {g tc i j : Nat} (h : groupKey g tc i = groupKey g tc j) : i = j := by
  unfold groupKey tcntKey cntKey at h
  split at h <;> omega

/-- The measured counters of a group among those from `i` up to `j`. -/
def measuredFrom (g i j : Nat) : Nat := ((List.range' i (j - i)).filter (isMeasured g)).length

/-- Counter `j` in a reading of the group's counters from `i` on: a measured one goes on by the next free amount. -/
def reading (g tc i : Nat) (e : Engine) (j : Nat) : U64 :=
  tget 0 e.cnt (groupKey g tc j)
    + if isMeasured g j then BitVec.ofNat 64 (Config.measured (e.free + measuredFrom g i j)) else 0

theorem measuredFrom_self (g i : Nat) : measuredFrom g i i = 0 := by simp [measuredFrom]

theorem measuredFrom_succ {g i j : Nat} (h : i < j) :
    measuredFrom g i j = (if isMeasured g i then 1 else 0) + measuredFrom g (i + 1) j := by
  obtain ⟨k, rfl⟩ : ∃ k, j = i + 1 + k := ⟨j - (i + 1), by omega⟩
  have h1 : i + 1 + k - i = k + 1 := by omega
  have h2 : i + 1 + k - (i + 1) = k := by omega
  rw [measuredFrom, measuredFrom, h1, h2, List.range'_succ, List.filter_cons]
  split
  · rw [List.length_cons, Nat.add_comm]
  · rw [Nat.zero_add]

/-- One counter read: a measured one is kept with the amount it has gone on by. -/
theorem counterVal_eq {g : Nat} (hg : g = 0x100 ∨ g < 4) (tc i : Nat) (e : Engine) :
    counterVal g tc i e = (reading g tc i e i, if isMeasured g i then
      { e with cnt := tset e.cnt (groupKey g tc i) (reading g tc i e i), free := e.free + 1 } else e) := by
  have hplain : (if g = 0x100 then (tget 0 e.cnt (tcntKey tc i), e)
      else if g < 4 then (tget 0 e.cnt (cntKey g i), e) else (0, e)) = (tget 0 e.cnt (groupKey g tc i), e) := by
    unfold groupKey
    split
    · rfl
    next hne => rw [if_pos (hg.resolve_left hne)]
  by_cases hm : isMeasured g i = true
  · rw [counterVal, if_pos hm, Machine.measure, if_pos hm, addCnt, reading, if_pos hm, measuredFrom_self]
    exact Prod.ext (tget_tset_self _ _ _ _) rfl
  · rw [counterVal, if_neg hm, hplain, if_neg hm, reading, if_neg hm]
    exact Prod.ext (BitVec.add_zero _).symm rfl

/-- A reading from `i` on is, past counter `i`, one from `i + 1` on after counter `i` was read. -/
theorem reading_succ {g : Nat} (tc : Nat) {i j : Nat} (hij : i < j) (e : Engine) :
    reading g tc (i + 1) (if isMeasured g i then
      { e with cnt := tset e.cnt (groupKey g tc i) (reading g tc i e i), free := e.free + 1 } else e) j
      = reading g tc i e j := by
  have hkey : groupKey g tc j ≠ groupKey g tc i := fun h => Nat.ne_of_gt hij (groupKey_inj h)
  by_cases hm : isMeasured g i = true
  · have hother (v : U64) : tget 0 (tset e.cnt (groupKey g tc i) v) (groupKey g tc j) = tget 0 e.cnt (groupKey g tc j)
      :=
      tget_tset_ne _ _ _ hkey
    simp only [reading, hm, if_true, measuredFrom_succ hij, hother, Nat.add_assoc]
  · simp only [reading, hm, if_false, measuredFrom_succ hij, Nat.zero_add, Bool.false_eq_true]

/-- What reading counters `i` to `i + n` of a group makes of the table of counters. -/
structure CountersRead (g tc i n : Nat) (e : Engine) (c : Table U64) : Prop where
  kept : ∀ j, i ≤ j → j < i + n → isMeasured g j = true → tget 0 c (groupKey g tc j) = reading g tc i e j
  rest : ∀ k, (∀ j, i ≤ j → j < i + n → isMeasured g j = true → k ≠ groupKey g tc j) → tget 0 c k = tget 0 e.cnt k

theorem counterVals_eq {g : Nat} (hg : g = 0x100 ∨ g < 4) (tc n : Nat) : ∀ (i : Nat) (e : Engine), ∃ c,
    counterVals g tc n i e = ((List.range' i n).map (reading g tc i e),
      { e with cnt := c, free := e.free + measuredFrom g i (i + n) }) ∧ CountersRead g tc i n e c := by
  induction n with
  | zero => exact fun i e => ⟨e.cnt, by simp [counterVals, measuredFrom], fun j _ _ => by omega, fun _ _ => rfl⟩
  | succ n ih =>
    intro i e
    obtain ⟨c, heq, hkept, hrest⟩ := ih (i + 1) (if isMeasured g i then
      { e with cnt := tset e.cnt (groupKey g tc i) (reading g tc i e i), free := e.free + 1 } else e)
    have hlist : (List.range' (i + 1) n).map (reading g tc (i + 1) (if isMeasured g i then
        { e with cnt := tset e.cnt (groupKey g tc i) (reading g tc i e i), free := e.free + 1 } else e))
        = (List.range' (i + 1) n).map (reading g tc i e) :=
      List.map_congr_left fun j hj => reading_succ tc (by have := List.mem_range'_1.mp hj; omega) e
    have hlen : i + 1 + n = i + (n + 1) := by omega
    rw [hlist, hlen] at heq
    refine ⟨c, ?_, fun j hlo hhi hm => ?_, fun k hk => ?_⟩
    · rw [counterVals, counterVal_eq hg]
      simp only [heq, List.range'_succ, List.map_cons, measuredFrom_succ (by omega : i < i + (n + 1))]
      split <;> simp [Nat.add_assoc]
    · by_cases hji : j = i
      · subst hji
        rw [hrest _ fun l hl _ _ h => by have := groupKey_inj h; omega, if_pos hm]
        exact tget_tset_self _ _ _ _
      · rw [hkept j (by omega) (by omega) hm, reading_succ tc (by omega)]
    · rw [hrest k fun l hl hlt => hk l (by omega) (by omega)]
      split
      next hm => exact tget_tset_ne _ _ _ (hk i (by omega) (by omega) hm)
      · rfl

/-- The measured counters of a group come first, or are the one of group 0x0100. -/
theorem measuredFrom_zero : ∀ g ∈ [0x100, 0, 1, 2, 3], ∀ i < 24, isMeasured g i = true →
    measuredFrom g 0 i = if g = 0x100 then 0 else i := by decide

/-! ## COUNTER_LATCH (R366-R367) -/

theorem exec_counterLatch {s : State} (hs : Free s) (h : Hdr) (group : U16) (edge : U8)
    (hopen : isOpen s.eng h.target.toNat = true) :
    exec (.counterLatch h group edge) s = replied s h 0x50 (opCounterLatch h group.toNat edge.toNat s.eng) :=
  row_replied hs (.counterLatch h group edge) (cmd := .counterLatch group edge) (.inr hopen) rfl fun _ => rfl

theorem opCounterLatch_known {h : Hdr} {g edge : Nat} {e : Engine} (hg : g = 0x100 ∨ g < 4 ∧ h.ring.toNat = 0)
    (hbase : (reg e (if h.ring.toNat = 0 then rDBG_LATCH_BASE else rDBG_TLATCH h.ring.toNat)).toNat / 4096 ≠ 0) :
    opCounterLatch h g edge e = done (if h.ring.toNat = 0 then e.latchNo else (ten e h.ring.toNat).latchNo).toNat
      (latchWrite h.ring.toNat g edge h.target.toNat h.tag e) := by
  have hknown : (if h.ring.toNat = 0 then decide (g < 4) || g == 0x100 else g == 0x100) = true := by
    rcases hg with rfl | ⟨hlt, hring⟩
    · simp
    · simp [hlt, hring]
  simp only [opCounterLatch, hknown, hbase, Bool.not_true, decide_false, Bool.or_self, Bool.false_eq_true, if_false]

/-- A latch writes its record into the next entry of its ring, and keeps the counters it read. -/
theorem latchWrite_eq {ring g edge tc : Nat} {tag : U32} {e : Engine} {vs : List U64} {c : Table U64} {f : Nat}
    (hread : counterVals g tc 24 0 e = (vs, { e with cnt := c, free := f })) :
    latchWrite ring g edge tc tag e =
      let o := if ring = 0 then rDBG_LATCH_BASE else rDBG_TLATCH ring
      let no := if ring = 0 then e.latchNo else (ten e ring).latchNo
      let e1 := wr (latchAddr e o no) (latchBytes no g edge tc tag vs e) { e with cnt := c, free := f }
      if ring = 0 then { e1 with latchNo := no + 1 } else setTen ring { ten e ring with latchNo := no + 1 } e1 := by
  have haddr (o : Nat) (no : U32) : latchAddr { e with cnt := c, free := f } o no = latchAddr e o no := rfl
  have hbytes (no : U32) : latchBytes no g edge tc tag vs { e with cnt := c, free := f }
      = latchBytes no g edge tc tag vs e := rfl
  have hten (a : Nat) (bs : List Byte) : ten (wr a bs { e with cnt := c, free := f }) ring = ten e ring := rfl
  simp only [latchWrite, hread, haddr, hbytes, modTen, hten]

/-- Settles O34: the counters are read one by one, each key once, and the record holds what was read. -/
theorem counterLatchWritesItsRecord : Obligations.CounterLatchWritesItsRecord := by
  unfold Obligations.CounterLatchWritesItsRecord
  intro s h group edge hs hopen e ring o no a hgroup hbase g key val
  have hg : g = 0x100 ∨ g < 4 := hgroup.imp_right And.left
  have hkey : ∀ i, groupKey g h.target.toNat i = key i := fun i => rfl
  have hval : ∀ i < 24, reading g h.target.toNat 0 e i = val i := by
    intro i hi
    have hmem : g ∈ [0x100, 0, 1, 2, 3] := by
      simp only [List.mem_cons, List.not_mem_nil, or_false]
      omega
    unfold reading
    by_cases hm : isMeasured g i = true
    · rw [measuredFrom_zero g hmem i hi hm]
      rfl
    · rw [if_neg hm]
      exact congrArg (tget 0 e.cnt (key i) + ·) (if_neg hm).symm
  obtain ⟨c, heq, hkept, hrest⟩ := counterVals_eq hg h.target.toNat 24 0 e
  have hlist : (List.range' 0 24).map (reading g h.target.toNat 0 e) = (List.range 24).map val := by
    rw [← List.range_eq_range']
    exact List.map_congr_left fun i hi => hval i (List.mem_range.mp hi)
  have hfree : measuredFrom g 0 (0 + 24) = ((List.range 24).filter (isMeasured g)).length := by
    rw [measuredFrom, List.range_eq_range']
  rw [hlist, hfree] at heq
  refine ⟨_, c, rfl, fun i hi hm => ?_, fun k hk => ?_, ?_⟩
  · rw [← hkey, hkept i (by omega) (by omega) hm, hval i hi]
  · exact hrest k fun j _ hj hm => hk j (by omega) hm
  · rw [exec_counterLatch hs h group edge hopen, opCounterLatch_known hgroup hbase, replied_done, latchWrite_eq heq]
    rfl

end Sys2Proof.Proofs

/-! # Memory responses and timeouts (R319-R320) -/

namespace Sys2Proof.Proofs

open Sys2Proof Sys2Proof.Machine Sys2Proof.Certs Sys2Proof.Laws

/-- A request that was waiting takes a tag that is free: the ports change only. -/
theorem memPump_frame (e : Engine) : ∃ p, memPump e = { e with port := p } := by
  refine List.foldlRecOn (motive := fun b => ∃ p, b = { e with port := p }) e.port.memWait _
    ⟨{ e.port with memWait := [] }, rfl⟩ fun b ⟨p, hb⟩ r _ => ?_
  obtain ⟨p', h⟩ := memIssue_frame r b
  exact ⟨p', by rw [h, hb]⟩

section Rows

variable {s : State} (hs : Free s) (port : Quad) (tag : U8)
include hs

theorem exec_memoryResponse (err : Bool) (data : List Byte) :
    exec (.memoryResponse port tag err data) s = goes s (opMemResponse port tag err data s.eng) := by
  obtain ⟨hup, hfree⟩ := hs
  have hexec : exec (.memoryResponse port tag err data) s
      = onEng (capGate (.memoryResponse port tag err data) (opMemResponse port tag err data)) s := rfl
  rw [hexec, onEng_up hup, capGate_free hfree]
  rfl

theorem exec_memTimeout : exec (.memTimeout port tag) s = goes s (opMemTimeout port tag s.eng) := by
  obtain ⟨hup, hfree⟩ := hs
  have hexec : exec (.memTimeout port tag) s = onEng (capGate (.memTimeout port tag) (opMemTimeout port tag)) s := rfl
  rw [hexec, onEng_up hup, capGate_free hfree]
  rfl

end Rows

/-- The engine when the tag of an answered request is free again. -/
def retired (k : Nat) (e : Engine) : Engine := memPump { e with port := { e.port with tags := tdel e.port.tags k } }

theorem retired_frame (k : Nat) (e : Engine) : ∃ p, retired k e = { e with port := p } := by
  obtain ⟨p, h⟩ := memPump_frame { e with port := { e.port with tags := tdel e.port.tags k } }
  exact ⟨p, h⟩

/-- The failure of a read that nothing waits for: its fault, and the bad line. -/
theorem readFails_plain {r : MemReq} (hread : r.write = false) (hwho : r.who = .none) (cls : FaultClass) (e : Engine) :
    readFails cls r e = lineBad r.addr
      (fault cls 0 .none (hMem r.port.toNat) (hMem r.port.toNat) (BitVec.ofNat 64 r.addr) e) := by
  unfold readFails
  extract_lets hm quiet tc e1
  have hquiet : quiet = false := by simp only [quiet, hwho, Bool.and_false]
  have htc : tc = 0 := by simp only [tc, hwho, memTenant]
  have he1 : e1 = fault cls 0 .none hm hm (BitVec.ofNat 64 r.addr) e := by
    rw [← htc]
    exact if_neg (by simp [hquiet])
  rw [if_neg (by simp [hread]), hwho, he1]
  rfl

/-- A change of a tenant's ring goes by the ring it finds. -/
theorem modRing_congr {tc : Nat} {f g : TRing → TRing} {e : Engine} (h : f (ten e tc).ring = g (ten e tc).ring) :
    modRing tc f e = modRing tc g e := by
  rw [modRing, modRing, modTen, modTen, h]

/-- The write of the one entry under way is seen: TAIL moves past it. -/
theorem writeSeen_only {tc : Nat} {idx : U32} {seen : Bool} {e : Engine}
    (h : (ten e tc).ring.inflight = [{ idx := idx, seen := seen, vec := none }]) :
    writeSeen tc idx e = setReg (rCP_SRING_TAIL tc) ((idx + 1).setWidth 64)
      (modRing tc (fun x => { x with inflight := [] })
        (modRing tc (fun x => { x with inflight := [{ idx := idx, seen := true, vec := none }] }) e)) := by
  have hseen : modRing tc (fun r => { r with
      inflight := r.inflight.map (fun w => if w.idx = idx then { w with seen := true } else w) }) e
      = modRing tc (fun x => { x with inflight := [{ idx := idx, seen := true, vec := none }] }) e :=
    modRing_congr (by simp [h])
  have hring : (ten (modRing tc (fun x => { x with inflight := [{ idx := idx, seen := true, vec := none }] }) e)
    tc).ring.inflight
      = [{ idx := idx, seen := true, vec := none }] := by simp [modRing]
  simp only [writeSeen, hseen, hring, List.length_singleton, srVisible, if_true]

theorem readDone_none (err : Bool) (e : Engine) : readDone .none err e = e := rfl

section Answers

variable {port : Quad} {tag : U8} {e : Engine}

theorem opMemResponse_stray (err : Bool) (data : List Byte)
    (h : tget? e.port.tags (port.toNat * 256 + tag.toNat) = none) :
    opMemResponse port tag err data e = bumpSat rCP_PORT_ERR 15 0 1 e := by
  simp only [opMemResponse, h]

theorem opMemTimeout_stray (h : tget? e.port.tags (port.toNat * 256 + tag.toNat) = none) :
    opMemTimeout port tag e = e := by
  simp only [opMemTimeout, h]

variable {r : MemReq} (h : tget? e.port.tags (port.toNat * 256 + tag.toNat) = some r)
include h

theorem opMemResponse_late (err : Bool) (data : List Byte) (hwho : r.who = .late) :
    opMemResponse port tag err data e = bumpSat rCP_PORT_ERR 15 0 1 (retired (port.toNat * 256 + tag.toNat) e) := by
  simp only [opMemResponse, h, hwho, if_true]
  rfl

theorem opMemTimeout_late (hwho : r.who = .late) : opMemTimeout port tag e = e := by
  simp only [opMemTimeout, h, hwho, if_true]

theorem opMemResponse_good (data : List Byte) (hread : r.write = false) (hwho : r.who = .none) :
    opMemResponse port tag false data e = { retired (port.toNat * 256 + tag.toNat) e with
      mem := memWrite e.mem r.addr (padTo 64 data), bad := e.bad.filter (· != r.addr) } := by
  have hop : opMemResponse port tag false data e
      = lineGood r.addr (wr r.addr (padTo 64 data) (retired (port.toNat * 256 + tag.toNat) e)) := by
    simp only [opMemResponse, retired, h, hread, hwho, reduceCtorEq, Bool.false_eq_true, if_false, readDone_none]
  obtain ⟨p, hp⟩ := retired_frame (port.toNat * 256 + tag.toNat) e
  rw [hop, hp, lineGood, wr]

theorem opMemResponse_bad (data : List Byte) (hread : r.write = false) (hwho : r.who = .none) :
    opMemResponse port tag true data e = lineBad r.addr (fault .memError 0 .none (hMem r.port.toNat) (hMem r.port.toNat)
      (BitVec.ofNat 64 r.addr) (retired (port.toNat * 256 + tag.toNat) e)) := by
  have hop : opMemResponse port tag true data e = readFails .memError r (retired (port.toNat * 256 + tag.toNat) e) := by
    simp only [opMemResponse, retired, h, hread, hwho, reduceCtorEq, Bool.false_eq_true, if_false, if_true]
  rw [hop, readFails_plain hread hwho]

theorem opMemTimeout_read (hread : r.write = false) (hwho : r.who = .none) :
    opMemTimeout port tag e = lineBad r.addr (fault .memTimeout 0 .none (hMem r.port.toNat) (hMem r.port.toNat)
      (BitVec.ofNat 64 r.addr) (count 2 12 1 (bumpSat rCP_PORT_ERR 31 16 1 { e with port := { e.port with
        tags := tset e.port.tags (port.toNat * 256 + tag.toNat) { r with who := .late } } }))) := by
  have hop : opMemTimeout port tag e = readFails .memTimeout r (count 2 12 1 (bumpSat rCP_PORT_ERR 31 16 1 { e with
      port := { e.port with tags := tset e.port.tags (port.toNat * 256 + tag.toNat) { r with who := .late } } })) := by
    simp only [opMemTimeout, h, hwho, reduceCtorEq, if_false]
  rw [hop, readFails_plain hread hwho]

theorem opMemResponse_seen (err : Bool) (data : List Byte) {tc : Nat} {idx : U32} (hwrite : r.write = true)
    (hwho : r.who = .status tc idx) :
    opMemResponse port tag err data e = writeSeen tc idx (retired (port.toNat * 256 + tag.toNat) e) := by
  simp only [opMemResponse, h, hwrite, hwho, reduceCtorEq, if_false, if_true]
  rfl

end Answers

/-- Settles O42: one equation for each kind of outstanding request, and none for a tag without one. -/
theorem memoryAnswersRetireTheirTags : Obligations.MemoryAnswersRetireTheirTags := by
  unfold Obligations.MemoryAnswersRetireTheirTags
  intro s port tag data err r hs k e
  refine ⟨fun hk => ⟨?_, ?_⟩, fun hk hread hwho => ⟨?_, ⟨_, rfl, ?_⟩, ⟨_, rfl, ?_⟩⟩, fun hk hwho => ⟨?_, ?_⟩,
    fun tc idx seen hk hwrite hwho hone => ?_⟩
  · rw [exec_memoryResponse hs, opMemResponse_stray err data hk]
  · rw [exec_memTimeout hs, opMemTimeout_stray hk]
    rfl
  · rw [exec_memoryResponse hs, opMemResponse_good hk data hread hwho]
    rfl
  · rw [exec_memoryResponse hs, opMemResponse_bad hk data hread hwho]
    rfl
  · rw [exec_memTimeout hs, opMemTimeout_read hk hread hwho]
    rfl
  · rw [exec_memoryResponse hs, opMemResponse_late hk err data hwho]
    rfl
  · rw [exec_memTimeout hs, opMemTimeout_late hk hwho]
    rfl
  · obtain ⟨p, hp⟩ := retired_frame k s.eng
    have hone' : (ten (retired k s.eng) tc).ring.inflight = [{ idx := idx, seen := seen, vec := none }] := by
      rw [hp]
      exact hone
    rw [exec_memoryResponse hs, opMemResponse_seen hk err data hwrite hwho, writeSeen_only hone']
    rfl

end Sys2Proof.Proofs

/-! # Engine resets (R338-R344, R396) -/

namespace Sys2Proof.Proofs

open Sys2Proof Sys2Proof.Machine Sys2Proof.Certs Sys2Proof.Laws

/-! ## An engine reset (R338, R344, R396) -/

/-- Faults, leadership and power are as they were. -/
def CoreKept (e e' : Engine) : Prop := e'.flt = e.flt ∧ e'.lead = e.lead ∧ e'.pwr = e.pwr

theorem CoreKept.trans {a b c : Engine} (h : CoreKept a b) (h' : CoreKept b c) : CoreKept a c := by
  obtain ⟨hf, hl, hp⟩ := h
  obtain ⟨hf', hl', hp'⟩ := h'
  exact ⟨hf'.trans hf, hl'.trans hl, hp'.trans hp⟩

theorem CoreKept.of_ringOnly {a b : Engine} (h : RingOnly a b) : CoreKept a b := by
  obtain ⟨_, _, _, _, rfl, -⟩ := h
  exact ⟨rfl, rfl, rfl⟩

theorem reply_coreKept (h : Hdr) (op st result : Nat) (e : Engine) : CoreKept e (reply h op st result e) :=
  .of_ringOnly (reply_only h op st result e)

theorem opCompleteNoCtx_coreKept (h : Hdr) {e e' : Engine} (he : CoreKept e e') : CoreKept e (opCompleteNoCtx h e') :=
  he.trans (.of_ringOnly (opComplete_only { h with target := 0 } e'))

theorem captureEnd_coreKept (e : Engine) : CoreKept e (captureEnd e) := by
  unfold captureEnd
  split
  · split
    · exact opCompleteNoCtx_coreKept _ ⟨rfl, rfl, rfl⟩
    · exact ⟨rfl, rfl, rfl⟩
  · exact ⟨rfl, rfl, rfl⟩

theorem answerRing_coreKept (tc st : Nat) (e : Engine) : CoreKept e (answerRing tc st e) := by
  unfold answerRing
  exact List.foldlRecOn (motive := CoreKept e) (ten e tc).ring.accepted _ ⟨rfl, rfl, rfl⟩
    fun b hb a _ => hb.trans (reply_coreKept a.h a.cmd.code st 0 b)

/-- What an engine reset answers and ends before it clears the engine. -/
def resetAnswers (e : Engine) : Engine :=
  let e := match e.cap.asked with
    | some (h, _, _) => reply h 0x0E sABORTED 0 e
    | none => e
  let e := captureEnd e
  (tenants e).foldl (fun e tc => answerRing tc sABORTED e) e

theorem resetAnswers_coreKept (e : Engine) : CoreKept e (resetAnswers e) := by
  unfold resetAnswers
  extract_lets e1 e2
  have h1 : CoreKept e e1 := by
    unfold e1
    split
    · exact reply_coreKept _ _ _ _ e
    · exact ⟨rfl, rfl, rfl⟩
  exact List.foldlRecOn (motive := CoreKept e) (tenants e2) _ (h1.trans (captureEnd_coreKept e1))
    fun b hb tc _ => hb.trans (answerRing_coreKept tc sABORTED b)

theorem engineReset_eq (e : Engine) : engineReset e = modPwr (fun p => { p with
    bor := false, holdBor := p.holdBor || !p.coreOk }) (retained (resetAnswers e) Engine.fresh) := rfl

/-- An engine held in reset after `e`: cleared, but for the leadership holds and the fault number. -/
structure ResetFrom (e e' : Engine) : Prop where
  cleared : Cleared e'
  counters : e'.cnt = []
  recNo : e'.flt.recNo = e.flt.recNo
  held : e'.lead.held = e.lead.held
  leaseStr : e'.lead.leaseStr = e.lead.leaseStr

theorem retained_resetFrom (old : Engine) : ResetFrom old (retained old Engine.fresh) where
  cleared := ⟨rfl, rfl, rfl, rfl, rfl, rfl, rfl, rfl, rfl, rfl, rfl, rfl, rfl, rfl, rfl, rfl, rfl, rfl⟩
  counters := rfl
  recNo := rfl
  held := rfl
  leaseStr := rfl

theorem retained_pwr (old : Engine) : (retained old Engine.fresh).pwr.retlostSticky = old.pwr.retlostSticky
    ∧ (retained old Engine.fresh).pwr.repair = old.pwr.repair := ⟨rfl, rfl⟩

theorem ResetFrom.modPwr {e e' : Engine} {f : PwrSt → PwrSt} (h : ResetFrom e e') (hf : (f e'.pwr).eng = e'.pwr.eng) :
    ResetFrom e (Machine.modPwr f e') := by
  obtain ⟨⟨h1, h2, h3, h4, h5, h6, h7, h8, h9, h10, h11, h12, h13, h14, h15, h16, h17, h18⟩, hcnt, hno, hheld,
    hlease⟩ := h
  exact ⟨⟨h1, h2, h3, h4, h5, h6, h7, h8, h9, h10, h11, h12, h13, h14, h15, h16, h17, hf.trans h18⟩, hcnt, hno, hheld,
    hlease⟩

theorem ResetFrom.of_kept {a b e : Engine} (h : ResetFrom b e) (hflt : b.flt = a.flt) (hlead : b.lead = a.lead) :
    ResetFrom a e :=
  ⟨h.cleared, h.counters, hflt ▸ h.recNo, hlead ▸ h.held, hlead ▸ h.leaseStr⟩

theorem engineReset_resetFrom (e : Engine) : ResetFrom e (engineReset e) := by
  obtain ⟨hflt, hlead, -⟩ := resetAnswers_coreKept e
  rw [engineReset_eq]
  exact ((retained_resetFrom _).of_kept hflt hlead).modPwr rfl

theorem engineReset_pwr (e : Engine) : (engineReset e).pwr.retlostSticky = e.pwr.retlostSticky
    ∧ (engineReset e).pwr.repair = e.pwr.repair := by
  obtain ⟨-, -, hpwr⟩ := resetAnswers_coreKept e
  rw [engineReset_eq, ← hpwr]
  exact retained_pwr (resetAnswers e)

/-- RST_N low, or VDD_A lost, resets the engine and holds it. -/
theorem opRstN_held {high vddaOk : Bool} (h : (!high || !vddaOk) = true) (straps : U8) (kat : Option U16)
    (bad : List BankAt) (e : Engine) :
    opRstN high vddaOk straps kat bad e = modPwr (fun p => { p with
      holdRstN := true, placementBad := p.placementBad && (high || !strapsOk straps) })
      (engineReset (modPwr (fun p => { p with failing := bad }) (if vddaOk then e else vretLost e))) := if_pos h

theorem opTestMode_on (instrRun : Bool) (e : Engine) : opTestMode true instrRun e = modPwr (fun p => { p with
    holdTest := true, testInstr := p.testInstr || instrRun }) (engineReset e) := rfl

theorem opBrownOut_powered {e : Engine} (h : e.pwr.eng ≠ 5) : opBrownOut e = modPwr (fun p => { p with
    holdBor := true, bor := true }) (engineReset (modPwr (fun p => { p with coreOk := false }) e)) :=
  if_neg fun hoff => h hoff.1

/-- A loss of VDD_A is one of the retention supplies, and of the repair words. -/
theorem opRstN_lost (high : Bool) (straps : U8) (kat : Option U16) (bad : List BankAt) (e : Engine) :
    (opRstN high false straps kat bad e).pwr.retlostSticky = true ∧ (opRstN high false straps kat bad e).pwr.repair =
      [] := by
  rw [opRstN_held (Bool.or_true _)]
  obtain ⟨hsticky, hrepair⟩ := engineReset_pwr (modPwr (fun p => { p with failing := bad })
    (if false then e else vretLost e))
  generalize engineReset _ = e' at *
  exact ⟨hsticky, hrepair⟩

/-- Settles O6: each of the three holds a reset engine, and a reset engine is the fresh one with what it retains. -/
theorem resetsClearTheEngine : Obligations.ResetsClearTheEngine := by
  unfold Obligations.ResetsClearTheEngine
  intro s high instrRun straps kat bad held
  have hold (e : Engine) (f : PwrSt → PwrSt) (hflt : e.flt = s.eng.flt) (hlead : e.lead = s.eng.lead)
      (hf : (f (engineReset e).pwr).eng = (engineReset e).pwr.eng) (hin : inReset (modPwr f (engineReset e)) = true) :
      held { s with eng := modPwr f (engineReset e) } := by
    obtain ⟨hcleared, hcnt, hno, hheld, hlease⟩ := ((engineReset_resetFrom e).of_kept hflt hlead).modPwr hf
    exact ⟨hin, hcleared, hcnt, hno, hheld, hlease, rfl⟩
  refine ⟨⟨_, congrArg (goes s) (opRstN_held rfl straps kat bad s.eng), rfl, ?_⟩,
    ⟨_, congrArg (goes s) (opRstN_held (Bool.or_true _) straps kat bad s.eng), rfl, ?_, ?_⟩,
    ⟨_, congrArg (goes s) (opTestMode_on instrRun s.eng), rfl, ?_⟩,
    fun hst => ⟨_, congrArg (goes s) (opBrownOut_powered hst), rfl, rfl, ?_⟩⟩
  · exact hold _ _ rfl rfl rfl (by simp [inReset, modPwr])
  · exact hold _ _ rfl rfl rfl (by simp [inReset, modPwr])
  · rw [← opRstN_held (Bool.or_true _)]
    exact opRstN_lost high straps kat bad s.eng
  · exact hold _ _ rfl rfl rfl (by simp [inReset, modPwr])
  · exact hold _ _ rfl rfl rfl (by simp [inReset, modPwr])

end Sys2Proof.Proofs
